-- ==== Sys2Proof/Word.lean ====
section
/-! DEFINITION. The two widths of the machine (00_scope.md R6): a datum and a register of 8 bits, an address of 16. -/

namespace Sys2Proof

/-- A datum or a general register: 8 bits (00_scope.md R6). -/
abbrev Byte := BitVec 8

/-- An address, PC, SP or a 16-bit view: 16 bits (00_scope.md R6). -/
abbrev Word := BitVec 16

/-- A colour index of a pixel, msb and lsb (10_state.md R55). -/
abbrev Pixel := BitVec 2

end Sys2Proof
end

