-- ==== Sys2Proof/Machine/Bits.lean ====
section
/-! DEFINITION. Bit-field, byte-order and sign-extension helpers (00_scope.md R11, 20_memory.md R80,
30_encoding.md R115, R123). -/

namespace Sys2Proof.Machine

/-- `lo(w) = w[7:0]` (00_scope.md R11). -/
def lo (w : Word) : Byte := w.extractLsb' 0 8

/-- `hi(w) = w[15:8]` (00_scope.md R11). -/
def hi (w : Word) : Byte := w.extractLsb' 8 8

/-- `h :: l`, the first in the high byte (00_scope.md R11). -/
def joinBytes (h l : Byte) : Word := h ++ l

/-- `sext_16(v)` (00_scope.md R11, 30_encoding.md R123). -/
def sext16 (v : Byte) : Word := v.signExtend 16

/-- Field x of an opcode byte, bits 7..6 (30_encoding.md R115). -/
def fieldX (b : Byte) : Fin 4 := (b.extractLsb' 6 2).toFin

/-- Field y of an opcode byte, bits 5..3 (30_encoding.md R115). -/
def fieldY (b : Byte) : Fin 8 := (b.extractLsb' 3 3).toFin

/-- Field z of an opcode byte, bits 2..0 (30_encoding.md R115). -/
def fieldZ (b : Byte) : Fin 8 := (b.extractLsb' 0 3).toFin

/-- `v` with bit `i` set to `x`. -/
def withBit (v : Byte) (i : Nat) (x : Bool) : Byte :=
  if x then v ||| (1#8 <<< i) else v &&& ~~~(1#8 <<< i)

/-- Whether an address lies in the window `first..last`, both included. -/
def inWindow (first last : Nat) (a : Word) : Bool := decide (first ≤ a.toNat ∧ a.toNat ≤ last)

end Sys2Proof.Machine
end

