-- ==== Sys2Proof/Config.lean ====
section
/-! DEFINITION. What is fixed at construction: the parameters of 00_scope.md R7, and the behaviour of the platform components
that the spec specifies only at their boundary. -/

namespace Sys2Proof

namespace Config

/-- OPEN_BUS, "all bits set" (00_scope.md R7, 20_memory.md R73). -/
def openBus : Byte := 0xFF#8

/-- PREFIX, the prefix marker (00_scope.md R7, 30_encoding.md R111). -/
def prefixByte : Byte := 0xCB#8

/-- TIMER_INC (00_scope.md R7, 48_timer.md R320). -/
def timerInc : Word := 4#16

/-- INT_CYCLES (00_scope.md R7, 60_exceptions.md R430). -/
def intCycles : Nat := 5

/-- DMA_LENGTH (00_scope.md R7, 49_display.md R363). -/
def dmaLength : Nat := 0xA0

/-- LCD_WIDTH (49_display.md R341). -/
def lcdWidth : Nat := 160

/-- LCD_HEIGHT, the visible lines (49_display.md R341). -/
def lcdHeight : Nat := 144

/-- MODE2_CYCLES (49_display.md R341). -/
def mode2Cycles : Nat := 20

/-- MODE3_CYCLES (49_display.md R341). -/
def mode3Cycles : Nat := 43

/-- MODE0_CYCLES (49_display.md R341). -/
def mode0Cycles : Nat := 51

/-- LINE_CYCLES, the sum of the three (49_display.md R341). -/
def lineCycles : Nat := 114

/-- FRAME_CYCLES, 154 lines of 114 cycles (49_display.md R341). -/
def frameCycles : Nat := 17556

/-- `read(address)` of a platform component specified only at its boundary: for the component's number, its own state, the
cycle and the address, the byte, or `none` for NO_DATA (00_scope.md R4, 20_memory.md R72; free, log 4). -/
opaque externalRead : Nat → Nat → Nat → Word → Option Byte

/-- `write(address, value)` of such a component: for its number, its own state, the cycle, the address and the byte, its next
state and the interrupts it requests inside the write (20_memory.md R72, R91; free, log 4). -/
opaque externalWrite : Nat → Nat → Nat → Word → Byte → Nat × List (Fin 5)

end Config
end Sys2Proof
end

