-- ==== Sys2Proof/Machine/State.lean ====
section
/-! DEFINITION. The state of the whole machine as plain data (10_state.md), the reasons a step can stop, and the state
right after reset. -/

namespace Sys2Proof.Machine

/-- The kinds of fatal condition (60_exceptions.md R440). -/
inductive FatalKind where
  /-- Opcode 0x10 decoded (47_system.md R302). -/
  | stop
  /-- One of the 11 unassigned direct bytes decoded, with that byte (47_system.md R305). -/
  | illegalOpcode (b : Byte)
  /-- Service selected bit i in 5..7 of `IE & IF` (60_exceptions.md R445). -/
  | badInterruptIndex (i : Nat)
  deriving DecidableEq, Repr

/-- Why the machine stops. -/
inductive Fault where
  /-- Raised by `step`, and only by it, on a state whose `fatal` is set: "no later tick changes any state"
  (10_state.md R58, 60_exceptions.md R440). Safe: the state that raised the condition was returned by the step before. -/
  | stopped (kind : FatalKind)
  deriving DecidableEq, Repr

/-- Why a request is turned away. No instruction's meaning answers with one of these. -/
inductive Refusal where
  /-- Raised by `exec` for an instruction that has no meaning yet; every arm has one, so it is never raised. Safe. -/
  | notModelled (mnemonic : String)
  /-- Raised by `runUntil` for a target cycle behind `now`: a precondition of the host interface (60_exceptions.md R441).
  Safe: it is no behaviour of the machine. -/
  | runUntilBehindNow
  /-- Raised by `hostRequestInterrupt` for an index above 4: a precondition of the host interface (60_exceptions.md R441).
  Safe: it is no behaviour of the machine. -/
  | hostInterruptIndex
  deriving DecidableEq, Repr

/-- The plain storage behind the bus, addresses strictly rising and no byte listed that is what an unlisted address reads
as, 0x00 (10_state.md R60, 20_memory.md R90; log 3). -/
abbrev Memory := List Host.Cell

/-- A component of the parameter `platform`, with the state that is its own (00_scope.md R8, 20_memory.md R72, R90; log 4). -/
inductive PlatformComponent where
  /-- `Cartridge(rom)` of the minimal variant; its image is in `State.mem` (20_memory.md R90). -/
  | cartridge
  /-- `WorkRam`, with its echo; its bytes are in `State.mem` (20_memory.md R90). -/
  | workRam
  /-- A window `first..last` of bytes of its own, a RAM if `writable` and else a read-only image: a RAM in the cartridge's RAM
  window, an image that shows ahead of the cartridge (20_memory.md R84, 70_reset_and_hazards.md R465). -/
  | memory (first last : Nat) (writable : Bool) (cells : Memory)
  /-- Any other component, by its number and its own state: joypad, banked cartridge, boot ROM, whose behaviour is
  `Config.externalRead` and `Config.externalWrite` (00_scope.md R4, 20_memory.md R72). -/
  | external (number own : Nat)
  deriving DecidableEq, Repr

/-- The default platform, `[Cartridge, WorkRam]` (20_memory.md R90). -/
def defaultPlatform : List PlatformComponent := [.cartridge, .workRam]

/-- The CPU's registers (10_state.md R20 to R34). -/
structure Cpu where
  a : Byte
  f : Byte
  b : Byte
  c : Byte
  d : Byte
  e : Byte
  h : Byte
  l : Byte
  pc : Word
  sp : Word
  /-- IME (R29). -/
  ime : Bool
  /-- IF, all 8 bits (R30). -/
  ifReg : Byte
  /-- IE, all 8 bits (R31). -/
  ie : Byte
  /-- Cpu.next, `none` for INF: halted (R33, R34). -/
  next : Option Nat
  deriving DecidableEq, Repr

/-- The Timer's registers (10_state.md R35 to R39). -/
structure Timer where
  counter : Word
  tima : Byte
  tma : Byte
  tac : Byte
  deriving DecidableEq, Repr

/-- The Display Controller's registers and hidden state (10_state.md R40 to R49, R52 to R56). -/
structure Lcd where
  lcdc : Byte
  stat : Byte
  scy : Byte
  scx : Byte
  ly : Byte
  lyc : Byte
  dma : Byte
  bgp : Byte
  obp0 : Byte
  obp1 : Byte
  wy : Byte
  wx : Byte
  /-- Lcd.dma_src (R52). -/
  dmaSrc : Byte
  /-- Lcd.dma_idx; a copy is in progress exactly when it is below 0xA0 (R52). -/
  dmaIdx : Nat
  /-- Lcd.on_cycle (R53). -/
  onCycle : Nat
  /-- Lcd.win_line (R54). -/
  winLine : Nat
  /-- Lcd.frame_cur, the lines from the top, each from the left (R55). -/
  frameCur : List (List Pixel)
  /-- Lcd.frame_next, one slot a line (R55). -/
  frameNext : List (Option (List Pixel))
  /-- Lcd.next, `none` for INF: powered down (R56). -/
  next : Option Nat
  deriving DecidableEq, Repr

/-- The machine: its units, the storage behind the bus, and the global state (10_state.md). -/
structure State where
  cpu : Cpu
  timer : Timer
  lcd : Lcd
  /-- HRAM, VRAM, OAM, the work RAM and the cartridge image, each cell under its bus address (R32, R50, R51;
  20_memory.md R90). -/
  mem : Memory
  /-- The parameter platform: the components attached after the three of the core, in attachment order, each with its own state
  (00_scope.md R8, 20_memory.md R71; log 4). -/
  platform : List PlatformComponent
  /-- The parameter host_events: interrupt `i` is requested just before tick `c` for each `(c, i)`
  (60_exceptions.md R427; log 5). -/
  hostEvents : List (Nat × Fin 5)
  /-- The global cycle counter (R57). -/
  now : Nat
  /-- Empty, or the kind of the Fatal raised (R58). -/
  fatal : Option FatalKind
  deriving DecidableEq, Repr

/-- What `exec` and `step` answer. -/
abbrev Result := Host.Outcome State Fault Refusal

/-- A line of 160 pixels of colour 0. -/
def blankLine : List Pixel := List.replicate Config.lcdWidth 0#2

/-- The CPU at reset (10_state.md R60). -/
def Cpu.reset : Cpu :=
  { a := 0#8, f := 0#8, b := 0#8, c := 0#8, d := 0#8, e := 0#8, h := 0#8, l := 0#8, pc := 0#16, sp := 0#16,
    ime := false, ifReg := 0#8, ie := 0#8, next := some 0 }

/-- The Timer at reset (10_state.md R60). -/
def Timer.reset : Timer := { counter := 0#16, tima := 0#8, tma := 0#8, tac := 0#8 }

/-- The Display Controller at reset, powered down (10_state.md R60). -/
def Lcd.reset : Lcd :=
  { lcdc := 0#8, stat := 0#8, scy := 0#8, scx := 0#8, ly := 0#8, lyc := 0#8, dma := 0#8, bgp := 0#8, obp0 := 0#8,
    obp1 := 0#8, wy := 0#8, wx := 0#8, dmaSrc := 0#8, dmaIdx := Config.dmaLength, onCycle := 0, winLine := 0,
    frameCur := List.replicate Config.lcdHeight blankLine, frameNext := List.replicate Config.lcdHeight none,
    next := none }

/-- The machine right after reset (10_state.md R60, 70_reset_and_hazards.md R461), with no cartridge image loaded
(DESIGN CHOICE, log 3), the default platform (20_memory.md R90) and no host events (60_exceptions.md R427). -/
def State.reset : State :=
  { cpu := Cpu.reset, timer := Timer.reset, lcd := Lcd.reset, mem := [], platform := defaultPlatform,
    hostEvents := [], now := 0, fatal := none }

/-- The start state `post_boot` of the parameter launch_state (70_reset_and_hazards.md R462). -/
def State.postBoot : State :=
  { State.reset with
    cpu := { Cpu.reset with
      a := 0x01#8, f := 0xB0#8, b := 0x00#8, c := 0x13#8, d := 0x00#8, e := 0xD8#8, h := 0x01#8, l := 0x4D#8,
      sp := 0xFFFE#16, pc := 0x0100#16, ime := false, ie := 0x00#8, ifReg := 0x01#8 }
    timer := { Timer.reset with counter := 0xABCC#16 }
    lcd := { Lcd.reset with lcdc := 0x91#8, bgp := 0xFC#8, obp0 := 0xFF#8, obp1 := 0xFF#8 } }

end Sys2Proof.Machine
end

