-- ==== Sys2Proof/Machine/Flags.lean ====
section
/-! DEFINITION. The flag register F and the flag write policy (10_state.md R22, R24, R27). -/

namespace Sys2Proof.Machine

/-- The four flags of an ALU result (40_alu.md R140). -/
structure Flags where
  z : Bool
  n : Bool
  h : Bool
  c : Bool
  deriving DecidableEq, Repr

/-- F from the four flags: bit 7 Z, 6 N, 5 H, 4 C, bits 3..0 zero (10_state.md R22). -/
def Flags.toByte (x : Flags) : Byte :=
  BitVec.ofNat 8 (0x80 * x.z.toNat + 0x40 * x.n.toNat + 0x20 * x.h.toNat + 0x10 * x.c.toNat)

/-- `fZ = F[7]` (00_scope.md R12). -/
def State.fZ (s : State) : Bool := s.cpu.f.getLsbD 7

/-- `fN = F[6]` (00_scope.md R12). -/
def State.fN (s : State) : Bool := s.cpu.f.getLsbD 6

/-- `fH = F[5]` (00_scope.md R12). -/
def State.fH (s : State) : Bool := s.cpu.f.getLsbD 5

/-- `fC = F[4]` (00_scope.md R12). -/
def State.fC (s : State) : Bool := s.cpu.f.getLsbD 4

/-- Write F whole. -/
def State.setF (s : State) (v : Byte) : State := { s with cpu := { s.cpu with f := v } }

/-- `flags <- (z, n, h, c)`: `none` leaves that flag unchanged, `some x` writes it (10_state.md R27). -/
def State.setFlags (s : State) (z n h c : Option Bool) : State :=
  s.setF (Flags.toByte ⟨z.getD s.fZ, n.getD s.fN, h.getD s.fH, c.getD s.fC⟩)

end Sys2Proof.Machine
end

