-- ==== Sys2Proof/Machine/Alu.lean ====
section
/-! DEFINITION. The ALU: pure functions from operands and explicit flag inputs to a value and four flags (40_alu.md). -/

namespace Sys2Proof.Machine

/-- The pair (value, flags) every ALU function returns (40_alu.md R140). -/
structure AluOut (w : Nat) where
  value : BitVec w
  flags : Flags
  deriving DecidableEq, Repr

/-- The direction of a rotate (40_alu.md R152). -/
inductive Dir where
  | left
  | right
  deriving DecidableEq, Repr

/-- `add(l, r, cin)` (40_alu.md R141). -/
def aluAdd (l r : Byte) (cin : Bool) : AluOut 8 :=
  let sum := l.toNat + r.toNat + cin.toNat
  let value := BitVec.ofNat 8 sum
  { value := value
    flags :=
      { z := value == 0#8
        n := false
        h := decide (l.toNat % 16 + r.toNat % 16 + cin.toNat > 0xF)
        c := decide (sum > 0xFF) } }

/-- `sub(l, r, bin)` (40_alu.md R142). -/
def aluSub (l r : Byte) (bin : Bool) : AluOut 8 :=
  let diff : Int := (l.toNat : Int) - r.toNat - bin.toNat
  let value := BitVec.ofInt 8 diff
  { value := value
    flags :=
      { z := value == 0#8
        n := true
        h := decide (((l.toNat % 16 : Nat) : Int) - ((r.toNat % 16 : Nat) : Int) - bin.toNat < 0)
        c := decide (diff < 0) } }

/-- `add16_low(l, r)`: H and C from the low byte (40_alu.md R143). -/
def aluAdd16Low (l r : Word) : AluOut 16 :=
  { value := BitVec.ofNat 16 (l.toNat + r.toNat)
    flags :=
      { z := false
        n := false
        h := decide (l.toNat % 16 + r.toNat % 16 > 0xF)
        c := decide (l.toNat % 0x100 + r.toNat % 0x100 > 0xFF) } }

/-- `add16_high(l, r)`: H from bit 11, C from bit 15 (40_alu.md R144). -/
def aluAdd16High (l r : Word) : AluOut 16 :=
  { value := BitVec.ofNat 16 (l.toNat + r.toNat)
    flags :=
      { z := false
        n := false
        h := decide (l.toNat % 0x1000 + r.toNat % 0x1000 > 0xFFF)
        c := decide (l.toNat + r.toNat > 0xFFFF) } }

/-- `bcd_adjust(v, n, h, c)` (40_alu.md R145). -/
def aluBcdAdjust (v : Byte) (n h c : Bool) : AluOut 8 :=
  let fixL := h || (!n && decide (v.toNat % 16 > 9))
  let fixH := c || (!n && decide (v.toNat > 0x99))
  let fix : Int := (if fixH then 0x60 else 0) + (if fixL then 0x06 else 0)
  let value := BitVec.ofInt 8 (if n then (v.toNat : Int) - fix else v.toNat + fix)
  { value := value, flags := { z := value == 0#8, n := n, h := false, c := fixH } }

/-- `and(l, r)` (40_alu.md R146). -/
def aluAnd (l r : Byte) : AluOut 8 :=
  let value := l &&& r
  { value := value, flags := { z := value == 0#8, n := false, h := true, c := false } }

/-- `or(l, r)` (40_alu.md R147). -/
def aluOr (l r : Byte) : AluOut 8 :=
  let value := l ||| r
  { value := value, flags := { z := value == 0#8, n := false, h := false, c := false } }

/-- `xor(l, r)` (40_alu.md R148). -/
def aluXor (l r : Byte) : AluOut 8 :=
  let value := l ^^^ r
  { value := value, flags := { z := value == 0#8, n := false, h := false, c := false } }

/-- The result of a shift or rotate: Z from the value, N = H = 0, C the bit shifted out (40_alu.md, before R149). -/
def shiftOut (value : Byte) (carry : Bool) : AluOut 8 :=
  { value := value, flags := { z := value == 0#8, n := false, h := false, c := carry } }

/-- `shift_left(v)` (40_alu.md R149). -/
def aluShiftLeft (v : Byte) : AluOut 8 := shiftOut (v <<< 1) (v.getLsbD 7)

/-- `shift_right_arithmetic(v)` (40_alu.md R150). -/
def aluShiftRightArithmetic (v : Byte) : AluOut 8 := shiftOut ((v >>> 1) ||| (v &&& 0x80#8)) (v.getLsbD 0)

/-- `shift_right_logical(v)` (40_alu.md R151). -/
def aluShiftRightLogical (v : Byte) : AluOut 8 := shiftOut (v >>> 1) (v.getLsbD 0)

/-- `rotate(dir, v)` (40_alu.md R152). -/
def aluRotate (dir : Dir) (v : Byte) : AluOut 8 :=
  match dir with
  | .left => shiftOut (withBit (v <<< 1) 0 (v.getLsbD 7)) (v.getLsbD 7)
  | .right => shiftOut (withBit (v >>> 1) 7 (v.getLsbD 0)) (v.getLsbD 0)

/-- `rotate_carry(dir, v, c)`, the 9-bit rotate (40_alu.md R153). -/
def aluRotateCarry (dir : Dir) (v : Byte) (c : Bool) : AluOut 8 :=
  match dir with
  | .left => shiftOut (withBit (v <<< 1) 0 c) (v.getLsbD 7)
  | .right => shiftOut (withBit (v >>> 1) 7 c) (v.getLsbD 0)

/-- `swap(v)`: nothing is shifted out, C = 0 (40_alu.md R154). -/
def aluSwap (v : Byte) : AluOut 8 := shiftOut (((v &&& 0x0F#8) <<< 4) ||| (v >>> 4)) false

/-- The flags of `test_bit(v, i)` (40_alu.md R155). -/
def aluTestBit (v : Byte) (i : Fin 8) : Flags := { z := !v.getLsbD i.val, n := false, h := true, c := false }

end Sys2Proof.Machine
end

