-- ==== Sys2Proof/Syntax.lean ====
section
/-! DEFINITION. The instruction set as syntax: one constructor of `Instr` per row of spec/opcode_table.json, and the
descriptor of each (length, base cost, extra cost when taken: 30_encoding.md R110, R125, R126). -/

namespace Sys2Proof

/-- The byte registers of the 3-bit register field; field value 6 is the `(HL)` form (30_encoding.md R116). -/
inductive Reg8 where
  | b | c | d | e | h | l | a
  deriving DecidableEq, Repr

/-- The register pairs of the field r16 (30_encoding.md R117). -/
inductive Pair where
  | bc | de | hl | sp
  deriving DecidableEq, Repr

/-- The register pairs of the field r16stk (30_encoding.md R118). -/
inductive StackPair where
  | bc | de | hl | af
  deriving DecidableEq, Repr

/-- The conditions of the field cc (30_encoding.md R120). -/
inductive Cond where
  | nz | z | nc | c
  deriving DecidableEq, Repr

/-- One constructor per row of spec/opcode_table.json. `rd`, `rs` are the register fields d and s, `n` an unsigned immediate, `e` the
raw byte of a signed displacement, `p` a pair, `cc` a condition, `b` a bit index, `t` a restart target. -/
inductive Instr where
  /-- `LD r,r'` (R170). -/
  | ldRR (rd rs : Reg8)
  /-- `LD r,n8` (R171). -/
  | ldRN8 (rd : Reg8) (n : Byte)
  /-- `LD r,(HL)` (R172). -/
  | ldRHl (rd : Reg8)
  /-- `LD (HL),r` (R173). -/
  | ldHlR (rs : Reg8)
  /-- `LD (HL),n8` (R174). -/
  | ldHlN8 (n : Byte)
  /-- `LD A,(BC)` (R175). -/
  | ldABc
  /-- `LD A,(DE)` (R176). -/
  | ldADe
  /-- `LD (BC),A` (R177). -/
  | ldBcA
  /-- `LD (DE),A` (R178). -/
  | ldDeA
  /-- `LD A,(HL+)` (R179). -/
  | ldAHlInc
  /-- `LD A,(HL-)` (R180). -/
  | ldAHlDec
  /-- `LD (HL+),A` (R181). -/
  | ldHlIncA
  /-- `LD (HL-),A` (R182). -/
  | ldHlDecA
  /-- `LD A,(n16)` (R183). -/
  | ldAN16 (n : Word)
  /-- `LD (n16),A` (R184). -/
  | ldN16A (n : Word)
  /-- `LDH A,(n8)` (R185). -/
  | ldhAN8 (n : Byte)
  /-- `LDH (n8),A` (R186). -/
  | ldhN8A (n : Byte)
  /-- `LD A,(C)` (R187). -/
  | ldAC
  /-- `LD (C),A` (R188). -/
  | ldCA
  /-- `LD rr,n16` (R200). -/
  | ldRrN16 (p : Pair) (n : Word)
  /-- `LD (n16),SP` (R201). -/
  | ldN16Sp (n : Word)
  /-- `LD SP,HL` (R202). -/
  | ldSpHl
  /-- `LD HL,SP+e8` (R203). -/
  | ldHlSpE8 (e : Byte)
  /-- `PUSH rr` (R204). -/
  | pushRr (p : StackPair)
  /-- `POP rr` (R205). -/
  | popRr (p : StackPair)
  /-- `ADD A,r` (R215). -/
  | addAR (rs : Reg8)
  /-- `ADD A,(HL)` (R216). -/
  | addAHl
  /-- `ADD A,n8` (R217). -/
  | addAN8 (n : Byte)
  /-- `ADC A,r` (R218). -/
  | adcAR (rs : Reg8)
  /-- `ADC A,(HL)` (R219). -/
  | adcAHl
  /-- `ADC A,n8` (R220). -/
  | adcAN8 (n : Byte)
  /-- `SUB A,r` (R221). -/
  | subAR (rs : Reg8)
  /-- `SUB A,(HL)` (R222). -/
  | subAHl
  /-- `SUB A,n8` (R223). -/
  | subAN8 (n : Byte)
  /-- `SBC A,r` (R224). -/
  | sbcAR (rs : Reg8)
  /-- `SBC A,(HL)` (R225). -/
  | sbcAHl
  /-- `SBC A,n8` (R226). -/
  | sbcAN8 (n : Byte)
  /-- `AND A,r` (R227). -/
  | andAR (rs : Reg8)
  /-- `AND A,(HL)` (R228). -/
  | andAHl
  /-- `AND A,n8` (R229). -/
  | andAN8 (n : Byte)
  /-- `XOR A,r` (R230). -/
  | xorAR (rs : Reg8)
  /-- `XOR A,(HL)` (R231). -/
  | xorAHl
  /-- `XOR A,n8` (R232). -/
  | xorAN8 (n : Byte)
  /-- `OR A,r` (R233). -/
  | orAR (rs : Reg8)
  /-- `OR A,(HL)` (R234). -/
  | orAHl
  /-- `OR A,n8` (R235). -/
  | orAN8 (n : Byte)
  /-- `CP A,r` (R236). -/
  | cpAR (rs : Reg8)
  /-- `CP A,(HL)` (R237). -/
  | cpAHl
  /-- `CP A,n8` (R238). -/
  | cpAN8 (n : Byte)
  /-- `INC r` (R239). -/
  | incR (rd : Reg8)
  /-- `INC (HL)` (R240). -/
  | incHl
  /-- `DEC r` (R241). -/
  | decR (rd : Reg8)
  /-- `DEC (HL)` (R242). -/
  | decHl
  /-- `DAA` (R244). -/
  | daa
  /-- `CPL` (R245). -/
  | cpl
  /-- `SCF` (R246). -/
  | scf
  /-- `CCF` (R247). -/
  | ccf
  /-- `ADD HL,rr` (R250). -/
  | addHlRr (p : Pair)
  /-- `ADD SP,e8` (R251). -/
  | addSpE8 (e : Byte)
  /-- `INC rr` (R252). -/
  | incRr (p : Pair)
  /-- `DEC rr` (R253). -/
  | decRr (p : Pair)
  /-- `RLCA` (R255). -/
  | rlca
  /-- `RRCA` (R256). -/
  | rrca
  /-- `RLA` (R257). -/
  | rla
  /-- `RRA` (R258). -/
  | rra
  /-- `RLC r` (R259). -/
  | rlcR (rs : Reg8)
  /-- `RLC (HL)` (R260). -/
  | rlcHl
  /-- `RRC r` (R261). -/
  | rrcR (rs : Reg8)
  /-- `RRC (HL)` (R262). -/
  | rrcHl
  /-- `RL r` (R263). -/
  | rlR (rs : Reg8)
  /-- `RL (HL)` (R264). -/
  | rlHl
  /-- `RR r` (R265). -/
  | rrR (rs : Reg8)
  /-- `RR (HL)` (R266). -/
  | rrHl
  /-- `SLA r` (R267). -/
  | slaR (rs : Reg8)
  /-- `SLA (HL)` (R268). -/
  | slaHl
  /-- `SRA r` (R269). -/
  | sraR (rs : Reg8)
  /-- `SRA (HL)` (R270). -/
  | sraHl
  /-- `SWAP r` (R271). -/
  | swapR (rs : Reg8)
  /-- `SWAP (HL)` (R272). -/
  | swapHl
  /-- `SRL r` (R273). -/
  | srlR (rs : Reg8)
  /-- `SRL (HL)` (R274). -/
  | srlHl
  /-- `BIT b,r` (R275). -/
  | bitBR (b : Fin 8) (rs : Reg8)
  /-- `BIT b,(HL)` (R276). -/
  | bitBHl (b : Fin 8)
  /-- `RES b,r` (R277). -/
  | resBR (b : Fin 8) (rs : Reg8)
  /-- `RES b,(HL)` (R278). -/
  | resBHl (b : Fin 8)
  /-- `SET b,r` (R279). -/
  | setBR (b : Fin 8) (rs : Reg8)
  /-- `SET b,(HL)` (R280). -/
  | setBHl (b : Fin 8)
  /-- `JP n16` (R281). -/
  | jpN16 (n : Word)
  /-- `JP cc,n16` (R282). -/
  | jpCcN16 (cc : Cond) (n : Word)
  /-- `JP HL` (R283). -/
  | jpHl
  /-- `JR e8` (R284). -/
  | jrE8 (e : Byte)
  /-- `JR cc,e8` (R285). -/
  | jrCcE8 (cc : Cond) (e : Byte)
  /-- `CALL n16` (R286). -/
  | callN16 (n : Word)
  /-- `CALL cc,n16` (R287). -/
  | callCcN16 (cc : Cond) (n : Word)
  /-- `RET` (R288). -/
  | ret
  /-- `RET cc` (R289). -/
  | retCc (cc : Cond)
  /-- `RST t` (R290). -/
  | rstT (t : Fin 8)
  /-- `RETI` (R291). -/
  | reti
  /-- `NOP` (R300). -/
  | nop
  /-- `HALT` (R301). -/
  | halt
  /-- `STOP` (R302). -/
  | stop
  /-- `DI` (R303). -/
  | di
  /-- `EI` (R304). -/
  | ei
  /-- `ILLEGAL_D3` (R305). -/
  | illegalD3
  /-- `ILLEGAL_DB` (R305). -/
  | illegalDB
  /-- `ILLEGAL_DD` (R305). -/
  | illegalDD
  /-- `ILLEGAL_E3` (R305). -/
  | illegalE3
  /-- `ILLEGAL_E4` (R305). -/
  | illegalE4
  /-- `ILLEGAL_EB` (R305). -/
  | illegalEB
  /-- `ILLEGAL_EC` (R305). -/
  | illegalEC
  /-- `ILLEGAL_ED` (R305). -/
  | illegalED
  /-- `ILLEGAL_F4` (R305). -/
  | illegalF4
  /-- `ILLEGAL_FC` (R305). -/
  | illegalFC
  /-- `ILLEGAL_FD` (R305). -/
  | illegalFD
  /-- `PREFIX` (R306). -/
  | pfx
  deriving DecidableEq, Repr

/-- The opcode descriptor (30_encoding.md R110): length in bytes (prefix byte and operands included), base cost in machine
cycles, extra cost when a conditional transfer is taken. -/
structure Descriptor where
  length : Nat
  cycles : Nat
  extraIfTaken : Nat
  deriving DecidableEq, Repr

/-- The descriptor of each row (30_encoding.md R125, R126). HALT, STOP, the illegal bytes and the prefix marker have a
cost in the table that is never charged (47_system.md R301, R302, R305, R306). -/
def Instr.descriptor : Instr → Descriptor
  | .ldRR _ _ => ⟨1, 1, 0⟩
  | .ldRN8 _ _ => ⟨2, 2, 0⟩
  | .ldRHl _ => ⟨1, 2, 0⟩
  | .ldHlR _ => ⟨1, 2, 0⟩
  | .ldHlN8 _ => ⟨2, 3, 0⟩
  | .ldABc => ⟨1, 2, 0⟩
  | .ldADe => ⟨1, 2, 0⟩
  | .ldBcA => ⟨1, 2, 0⟩
  | .ldDeA => ⟨1, 2, 0⟩
  | .ldAHlInc => ⟨1, 2, 0⟩
  | .ldAHlDec => ⟨1, 2, 0⟩
  | .ldHlIncA => ⟨1, 2, 0⟩
  | .ldHlDecA => ⟨1, 2, 0⟩
  | .ldAN16 _ => ⟨3, 4, 0⟩
  | .ldN16A _ => ⟨3, 4, 0⟩
  | .ldhAN8 _ => ⟨2, 3, 0⟩
  | .ldhN8A _ => ⟨2, 3, 0⟩
  | .ldAC => ⟨1, 2, 0⟩
  | .ldCA => ⟨1, 2, 0⟩
  | .ldRrN16 _ _ => ⟨3, 3, 0⟩
  | .ldN16Sp _ => ⟨3, 5, 0⟩
  | .ldSpHl => ⟨1, 2, 0⟩
  | .ldHlSpE8 _ => ⟨2, 3, 0⟩
  | .pushRr _ => ⟨1, 4, 0⟩
  | .popRr _ => ⟨1, 3, 0⟩
  | .addAR _ => ⟨1, 1, 0⟩
  | .addAHl => ⟨1, 2, 0⟩
  | .addAN8 _ => ⟨2, 2, 0⟩
  | .adcAR _ => ⟨1, 1, 0⟩
  | .adcAHl => ⟨1, 2, 0⟩
  | .adcAN8 _ => ⟨2, 2, 0⟩
  | .subAR _ => ⟨1, 1, 0⟩
  | .subAHl => ⟨1, 2, 0⟩
  | .subAN8 _ => ⟨2, 2, 0⟩
  | .sbcAR _ => ⟨1, 1, 0⟩
  | .sbcAHl => ⟨1, 2, 0⟩
  | .sbcAN8 _ => ⟨2, 2, 0⟩
  | .andAR _ => ⟨1, 1, 0⟩
  | .andAHl => ⟨1, 2, 0⟩
  | .andAN8 _ => ⟨2, 2, 0⟩
  | .xorAR _ => ⟨1, 1, 0⟩
  | .xorAHl => ⟨1, 2, 0⟩
  | .xorAN8 _ => ⟨2, 2, 0⟩
  | .orAR _ => ⟨1, 1, 0⟩
  | .orAHl => ⟨1, 2, 0⟩
  | .orAN8 _ => ⟨2, 2, 0⟩
  | .cpAR _ => ⟨1, 1, 0⟩
  | .cpAHl => ⟨1, 2, 0⟩
  | .cpAN8 _ => ⟨2, 2, 0⟩
  | .incR _ => ⟨1, 1, 0⟩
  | .incHl => ⟨1, 3, 0⟩
  | .decR _ => ⟨1, 1, 0⟩
  | .decHl => ⟨1, 3, 0⟩
  | .daa => ⟨1, 1, 0⟩
  | .cpl => ⟨1, 1, 0⟩
  | .scf => ⟨1, 1, 0⟩
  | .ccf => ⟨1, 1, 0⟩
  | .addHlRr _ => ⟨1, 2, 0⟩
  | .addSpE8 _ => ⟨2, 4, 0⟩
  | .incRr _ => ⟨1, 2, 0⟩
  | .decRr _ => ⟨1, 2, 0⟩
  | .rlca => ⟨1, 1, 0⟩
  | .rrca => ⟨1, 1, 0⟩
  | .rla => ⟨1, 1, 0⟩
  | .rra => ⟨1, 1, 0⟩
  | .rlcR _ => ⟨2, 2, 0⟩
  | .rlcHl => ⟨2, 4, 0⟩
  | .rrcR _ => ⟨2, 2, 0⟩
  | .rrcHl => ⟨2, 4, 0⟩
  | .rlR _ => ⟨2, 2, 0⟩
  | .rlHl => ⟨2, 4, 0⟩
  | .rrR _ => ⟨2, 2, 0⟩
  | .rrHl => ⟨2, 4, 0⟩
  | .slaR _ => ⟨2, 2, 0⟩
  | .slaHl => ⟨2, 4, 0⟩
  | .sraR _ => ⟨2, 2, 0⟩
  | .sraHl => ⟨2, 4, 0⟩
  | .swapR _ => ⟨2, 2, 0⟩
  | .swapHl => ⟨2, 4, 0⟩
  | .srlR _ => ⟨2, 2, 0⟩
  | .srlHl => ⟨2, 4, 0⟩
  | .bitBR _ _ => ⟨2, 2, 0⟩
  | .bitBHl _ => ⟨2, 3, 0⟩
  | .resBR _ _ => ⟨2, 2, 0⟩
  | .resBHl _ => ⟨2, 4, 0⟩
  | .setBR _ _ => ⟨2, 2, 0⟩
  | .setBHl _ => ⟨2, 4, 0⟩
  | .jpN16 _ => ⟨3, 4, 0⟩
  | .jpCcN16 _ _ => ⟨3, 3, 1⟩
  | .jpHl => ⟨1, 1, 0⟩
  | .jrE8 _ => ⟨2, 3, 0⟩
  | .jrCcE8 _ _ => ⟨2, 2, 1⟩
  | .callN16 _ => ⟨3, 6, 0⟩
  | .callCcN16 _ _ => ⟨3, 3, 3⟩
  | .ret => ⟨1, 4, 0⟩
  | .retCc _ => ⟨1, 2, 3⟩
  | .rstT _ => ⟨1, 4, 0⟩
  | .reti => ⟨1, 4, 0⟩
  | .nop => ⟨1, 1, 0⟩
  | .halt => ⟨1, 1, 0⟩
  | .stop => ⟨2, 1, 0⟩
  | .di => ⟨1, 1, 0⟩
  | .ei => ⟨1, 1, 0⟩
  | .illegalD3 => ⟨1, 0, 0⟩
  | .illegalDB => ⟨1, 0, 0⟩
  | .illegalDD => ⟨1, 0, 0⟩
  | .illegalE3 => ⟨1, 0, 0⟩
  | .illegalE4 => ⟨1, 0, 0⟩
  | .illegalEB => ⟨1, 0, 0⟩
  | .illegalEC => ⟨1, 0, 0⟩
  | .illegalED => ⟨1, 0, 0⟩
  | .illegalF4 => ⟨1, 0, 0⟩
  | .illegalFC => ⟨1, 0, 0⟩
  | .illegalFD => ⟨1, 0, 0⟩
  | .pfx => ⟨1, 0, 0⟩

/-- The length in bytes (30_encoding.md R112). -/
def Instr.length (i : Instr) : Nat := i.descriptor.length

/-- The base cost in machine cycles (30_encoding.md R113). -/
def Instr.cycles (i : Instr) : Nat := i.descriptor.cycles

/-- The extra cost when taken (30_encoding.md R113). -/
def Instr.extraIfTaken (i : Instr) : Nat := i.descriptor.extraIfTaken

end Sys2Proof
end

