-- ==== Sys2Proof/WellFormed.lean ====
section
/-! DEFINITION. Which terms of `Instr` are instructions that can stand in memory. The operand types already carry every
bound of 30_encoding.md R116 to R120, so the one check is that of R111: the prefix marker is not an instruction by itself. -/

namespace Sys2Proof

/-- Whether a term is a whole instruction: every row but PREFIX, which "cannot stand alone" (30_encoding.md R111). -/
def Instr.wellFormed : Instr → Bool
  | .ldRR _ _ => true
  | .ldRN8 _ _ => true
  | .ldRHl _ => true
  | .ldHlR _ => true
  | .ldHlN8 _ => true
  | .ldABc => true
  | .ldADe => true
  | .ldBcA => true
  | .ldDeA => true
  | .ldAHlInc => true
  | .ldAHlDec => true
  | .ldHlIncA => true
  | .ldHlDecA => true
  | .ldAN16 _ => true
  | .ldN16A _ => true
  | .ldhAN8 _ => true
  | .ldhN8A _ => true
  | .ldAC => true
  | .ldCA => true
  | .ldRrN16 _ _ => true
  | .ldN16Sp _ => true
  | .ldSpHl => true
  | .ldHlSpE8 _ => true
  | .pushRr _ => true
  | .popRr _ => true
  | .addAR _ => true
  | .addAHl => true
  | .addAN8 _ => true
  | .adcAR _ => true
  | .adcAHl => true
  | .adcAN8 _ => true
  | .subAR _ => true
  | .subAHl => true
  | .subAN8 _ => true
  | .sbcAR _ => true
  | .sbcAHl => true
  | .sbcAN8 _ => true
  | .andAR _ => true
  | .andAHl => true
  | .andAN8 _ => true
  | .xorAR _ => true
  | .xorAHl => true
  | .xorAN8 _ => true
  | .orAR _ => true
  | .orAHl => true
  | .orAN8 _ => true
  | .cpAR _ => true
  | .cpAHl => true
  | .cpAN8 _ => true
  | .incR _ => true
  | .incHl => true
  | .decR _ => true
  | .decHl => true
  | .daa => true
  | .cpl => true
  | .scf => true
  | .ccf => true
  | .addHlRr _ => true
  | .addSpE8 _ => true
  | .incRr _ => true
  | .decRr _ => true
  | .rlca => true
  | .rrca => true
  | .rla => true
  | .rra => true
  | .rlcR _ => true
  | .rlcHl => true
  | .rrcR _ => true
  | .rrcHl => true
  | .rlR _ => true
  | .rlHl => true
  | .rrR _ => true
  | .rrHl => true
  | .slaR _ => true
  | .slaHl => true
  | .sraR _ => true
  | .sraHl => true
  | .swapR _ => true
  | .swapHl => true
  | .srlR _ => true
  | .srlHl => true
  | .bitBR _ _ => true
  | .bitBHl _ => true
  | .resBR _ _ => true
  | .resBHl _ => true
  | .setBR _ _ => true
  | .setBHl _ => true
  | .jpN16 _ => true
  | .jpCcN16 _ _ => true
  | .jpHl => true
  | .jrE8 _ => true
  | .jrCcE8 _ _ => true
  | .callN16 _ => true
  | .callCcN16 _ _ => true
  | .ret => true
  | .retCc _ => true
  | .rstT _ => true
  | .reti => true
  | .nop => true
  | .halt => true
  | .stop => true
  | .di => true
  | .ei => true
  | .illegalD3 => true
  | .illegalDB => true
  | .illegalDD => true
  | .illegalE3 => true
  | .illegalE4 => true
  | .illegalEB => true
  | .illegalEC => true
  | .illegalED => true
  | .illegalF4 => true
  | .illegalFC => true
  | .illegalFD => true
  | .pfx => false

end Sys2Proof
end

