-- ==== Sys2Proof/Decode.lean ====
section
/-! DEFINITION. Decoding bytes to instructions, total and by the encoding tables of 30_encoding.md, and the encoder.
Every direct and every prefixed byte value is an instruction (R129), so decoding rejects only a byte list that ends before
the instruction does. -/

namespace Sys2Proof

open Sys2Proof.Machine

/-- Why a byte list does not decode. -/
inductive DecodeReject where
  /-- There is no byte at all. -/
  | noBytes
  /-- The list ends before the last byte of the instruction that `opcode` begins. -/
  | truncated (opcode : Byte)
  deriving DecidableEq, Repr

/-- The register field r8; value 6 is `(HL)`, no register (30_encoding.md R116). -/
def reg8OfField : Fin 8 → Option Reg8
  | 0 => some .b
  | 1 => some .c
  | 2 => some .d
  | 3 => some .e
  | 4 => some .h
  | 5 => some .l
  | 6 => none
  | 7 => some .a

/-- The pair field r16 from bits 5..4, the upper two bits of field y (30_encoding.md R115, R117). -/
def pairOfY : Fin 8 → Pair
  | 0 | 1 => .bc
  | 2 | 3 => .de
  | 4 | 5 => .hl
  | 6 | 7 => .sp

/-- The pair field r16stk from bits 5..4 (30_encoding.md R115, R118). -/
def stackPairOfY : Fin 8 → StackPair
  | 0 | 1 => .bc
  | 2 | 3 => .de
  | 4 | 5 => .hl
  | 6 | 7 => .af

/-- The condition field cc from bits 4..3, the lower two bits of field y (30_encoding.md R115, R120). -/
def condOfY : Fin 8 → Cond
  | 0 | 4 => .nz
  | 1 | 5 => .z
  | 2 | 6 => .nc
  | 3 | 7 => .c

/-- The operation field of `10yyysss` (30_encoding.md R121, 43_arith8.md). -/
def aluRegInstr (y : Fin 8) (s : Reg8) : Instr :=
  match y with
  | 0 => .addAR s
  | 1 => .adcAR s
  | 2 => .subAR s
  | 3 => .sbcAR s
  | 4 => .andAR s
  | 5 => .xorAR s
  | 6 => .orAR s
  | 7 => .cpAR s

/-- The operation field of `10yyy110` (30_encoding.md R121). -/
def aluHlInstr : Fin 8 → Instr
  | 0 => .addAHl
  | 1 => .adcAHl
  | 2 => .subAHl
  | 3 => .sbcAHl
  | 4 => .andAHl
  | 5 => .xorAHl
  | 6 => .orAHl
  | 7 => .cpAHl

/-- The operation field of `11yyy110 nn` (30_encoding.md R121). -/
def aluImmInstr (y : Fin 8) (n : Byte) : Instr :=
  match y with
  | 0 => .addAN8 n
  | 1 => .adcAN8 n
  | 2 => .subAN8 n
  | 3 => .sbcAN8 n
  | 4 => .andAN8 n
  | 5 => .xorAN8 n
  | 6 => .orAN8 n
  | 7 => .cpAN8 n

/-- Rows 0x to 3x of the direct table, `00yyyzzz` (30_encoding.md R125); `n1`, `n2` are the two bytes after the opcode. -/
def decodeQuarter0 (y z : Fin 8) (n1 n2 : Byte) : Instr :=
  match z with
  | 0 =>
    match y with
    | 0 => .nop
    | 1 => .ldN16Sp (joinBytes n2 n1)
    | 2 => .stop
    | 3 => .jrE8 n1
    | 4 | 5 | 6 | 7 => .jrCcE8 (condOfY y) n1
  | 1 =>
    match y with
    | 0 | 2 | 4 | 6 => .ldRrN16 (pairOfY y) (joinBytes n2 n1)
    | 1 | 3 | 5 | 7 => .addHlRr (pairOfY y)
  | 2 =>
    match y with
    | 0 => .ldBcA
    | 1 => .ldABc
    | 2 => .ldDeA
    | 3 => .ldADe
    | 4 => .ldHlIncA
    | 5 => .ldAHlInc
    | 6 => .ldHlDecA
    | 7 => .ldAHlDec
  | 3 =>
    match y with
    | 0 | 2 | 4 | 6 => .incRr (pairOfY y)
    | 1 | 3 | 5 | 7 => .decRr (pairOfY y)
  | 4 =>
    match reg8OfField y with
    | some rd => .incR rd
    | none => .incHl
  | 5 =>
    match reg8OfField y with
    | some rd => .decR rd
    | none => .decHl
  | 6 =>
    match reg8OfField y with
    | some rd => .ldRN8 rd n1
    | none => .ldHlN8 n1
  | 7 =>
    match y with
    | 0 => .rlca
    | 1 => .rrca
    | 2 => .rla
    | 3 => .rra
    | 4 => .daa
    | 5 => .cpl
    | 6 => .scf
    | 7 => .ccf

/-- Rows 4x to 7x, `01dddsss`; d = s = 6 is HALT (30_encoding.md R125, R129). -/
def decodeQuarter1 (y z : Fin 8) : Instr :=
  match reg8OfField y, reg8OfField z with
  | some rd, some rs => .ldRR rd rs
  | some rd, none => .ldRHl rd
  | none, some rs => .ldHlR rs
  | none, none => .halt

/-- Rows 8x to Bx, `10yyysss` (30_encoding.md R125). -/
def decodeQuarter2 (y z : Fin 8) : Instr :=
  match reg8OfField z with
  | some s => aluRegInstr y s
  | none => aluHlInstr y

/-- Rows Cx to Fx, `11yyyzzz` (30_encoding.md R125), the unassigned bytes of R127 and the prefix marker among them. -/
def decodeQuarter3 (y z : Fin 8) (n1 n2 : Byte) : Instr :=
  match z with
  | 0 =>
    match y with
    | 0 | 1 | 2 | 3 => .retCc (condOfY y)
    | 4 => .ldhN8A n1
    | 5 => .addSpE8 n1
    | 6 => .ldhAN8 n1
    | 7 => .ldHlSpE8 n1
  | 1 =>
    match y with
    | 0 | 2 | 4 | 6 => .popRr (stackPairOfY y)
    | 1 => .ret
    | 3 => .reti
    | 5 => .jpHl
    | 7 => .ldSpHl
  | 2 =>
    match y with
    | 0 | 1 | 2 | 3 => .jpCcN16 (condOfY y) (joinBytes n2 n1)
    | 4 => .ldCA
    | 5 => .ldN16A (joinBytes n2 n1)
    | 6 => .ldAC
    | 7 => .ldAN16 (joinBytes n2 n1)
  | 3 =>
    match y with
    | 0 => .jpN16 (joinBytes n2 n1)
    | 1 => .pfx
    | 2 => .illegalD3
    | 3 => .illegalDB
    | 4 => .illegalE3
    | 5 => .illegalEB
    | 6 => .di
    | 7 => .ei
  | 4 =>
    match y with
    | 0 | 1 | 2 | 3 => .callCcN16 (condOfY y) (joinBytes n2 n1)
    | 4 => .illegalE4
    | 5 => .illegalEC
    | 6 => .illegalF4
    | 7 => .illegalFC
  | 5 =>
    match y with
    | 0 | 2 | 4 | 6 => .pushRr (stackPairOfY y)
    | 1 => .callN16 (joinBytes n2 n1)
    | 3 => .illegalDD
    | 5 => .illegalED
    | 7 => .illegalFD
  | 6 => aluImmInstr y n1
  | 7 => .rstT y

/-- The direct table's entry for an opcode byte (30_encoding.md R111, R125). -/
def decodeDirect (b n1 n2 : Byte) : Instr :=
  match fieldX b with
  | 0 => decodeQuarter0 (fieldY b) (fieldZ b) n1 n2
  | 1 => decodeQuarter1 (fieldY b) (fieldZ b)
  | 2 => decodeQuarter2 (fieldY b) (fieldZ b)
  | 3 => decodeQuarter3 (fieldY b) (fieldZ b) n1 n2

/-- The rotates and shifts of the prefixed table on a register, `00yyysss` (30_encoding.md R122, R126). -/
def shiftRegInstr (y : Fin 8) (s : Reg8) : Instr :=
  match y with
  | 0 => .rlcR s
  | 1 => .rrcR s
  | 2 => .rlR s
  | 3 => .rrR s
  | 4 => .slaR s
  | 5 => .sraR s
  | 6 => .swapR s
  | 7 => .srlR s

/-- The rotates and shifts of the prefixed table on `(HL)`, `00yyy110` (30_encoding.md R122, R126). -/
def shiftHlInstr : Fin 8 → Instr
  | 0 => .rlcHl
  | 1 => .rrcHl
  | 2 => .rlHl
  | 3 => .rrHl
  | 4 => .slaHl
  | 5 => .sraHl
  | 6 => .swapHl
  | 7 => .srlHl

/-- The prefixed table's entry for the byte after the prefix marker (30_encoding.md R122, R126). -/
def decodePrefixed (b : Byte) : Instr :=
  match fieldX b, reg8OfField (fieldZ b) with
  | 0, some s => shiftRegInstr (fieldY b) s
  | 0, none => shiftHlInstr (fieldY b)
  | 1, some s => .bitBR (fieldY b) s
  | 1, none => .bitBHl (fieldY b)
  | 2, some s => .resBR (fieldY b) s
  | 2, none => .resBHl (fieldY b)
  | 3, some s => .setBR (fieldY b) s
  | 3, none => .setBHl (fieldY b)

/-- `Decode()`: the instruction that the byte `b0` begins, `b1` and `b2` the bytes after it (30_encoding.md R111). -/
def decodeBytes (b0 b1 b2 : Byte) : Instr :=
  if b0 = Config.prefixByte then decodePrefixed b1 else decodeDirect b0 b1 b2

/-- The length from the first byte alone (30_encoding.md R114). -/
def lengthOfFirst (b0 : Byte) : Nat := (decodeBytes b0 0#8 0#8).length

/-- Decode the instruction at the head of a byte list and give the rest of the list (30_encoding.md R111). -/
def decode : List Byte → Except DecodeReject (Instr × List Byte)
  | [] => .error .noBytes
  | b0 :: rest =>
    if rest.length + 1 < lengthOfFirst b0 then .error (.truncated b0)
    else .ok (decodeBytes b0 (rest.getD 0 0#8) (rest.getD 1 0#8), rest.drop (lengthOfFirst b0 - 1))

/-! ## The encoder -/

/-- The r8 code of a register (30_encoding.md R116). -/
def Reg8.code : Reg8 → Nat
  | .b => 0
  | .c => 1
  | .d => 2
  | .e => 3
  | .h => 4
  | .l => 5
  | .a => 7

/-- The r16 code of a pair (30_encoding.md R117). -/
def Pair.code : Pair → Nat
  | .bc => 0
  | .de => 1
  | .hl => 2
  | .sp => 3

/-- The r16stk code of a pair (30_encoding.md R118). -/
def StackPair.code : StackPair → Nat
  | .bc => 0
  | .de => 1
  | .hl => 2
  | .af => 3

/-- The cc code of a condition (30_encoding.md R120). -/
def Cond.code : Cond → Nat
  | .nz => 0
  | .z => 1
  | .nc => 2
  | .c => 3

/-- Format OP: one opcode byte (30_encoding.md R114). -/
def formOp (op : Nat) : List Byte := [BitVec.ofNat 8 op]

/-- Format OP_N8: an opcode byte and an 8-bit operand (30_encoding.md R114). -/
def formN8 (op : Nat) (n : Byte) : List Byte := [BitVec.ofNat 8 op, n]

/-- Format OP_N16: an opcode byte and a 16-bit operand, low byte first (30_encoding.md R114, R123). -/
def formN16 (op : Nat) (n : Word) : List Byte := [BitVec.ofNat 8 op, lo n, hi n]

/-- Format PFX_OP: the prefix marker and a byte of the prefixed table (30_encoding.md R114). -/
def formPfx (op : Nat) : List Byte := [Config.prefixByte, BitVec.ofNat 8 op]

/-- The bytes of an instruction in memory order, from the encodings of its rule. The second byte of STOP has no meaning
(47_system.md R302) and is written 0x00 (DESIGN CHOICE, log 7). -/
def encode : Instr → List Byte
  | .ldRR rd rs => formOp (0x40 + 8 * rd.code + rs.code)
  | .ldRN8 rd n => formN8 (0x06 + 8 * rd.code) n
  | .ldRHl rd => formOp (0x46 + 8 * rd.code)
  | .ldHlR rs => formOp (0x70 + rs.code)
  | .ldHlN8 n => formN8 0x36 n
  | .ldABc => formOp 0x0A
  | .ldADe => formOp 0x1A
  | .ldBcA => formOp 0x02
  | .ldDeA => formOp 0x12
  | .ldAHlInc => formOp 0x2A
  | .ldAHlDec => formOp 0x3A
  | .ldHlIncA => formOp 0x22
  | .ldHlDecA => formOp 0x32
  | .ldAN16 n => formN16 0xFA n
  | .ldN16A n => formN16 0xEA n
  | .ldhAN8 n => formN8 0xF0 n
  | .ldhN8A n => formN8 0xE0 n
  | .ldAC => formOp 0xF2
  | .ldCA => formOp 0xE2
  | .ldRrN16 p n => formN16 (0x01 + 16 * p.code) n
  | .ldN16Sp n => formN16 0x08 n
  | .ldSpHl => formOp 0xF9
  | .ldHlSpE8 e => formN8 0xF8 e
  | .pushRr p => formOp (0xC5 + 16 * p.code)
  | .popRr p => formOp (0xC1 + 16 * p.code)
  | .addAR rs => formOp (0x80 + rs.code)
  | .addAHl => formOp 0x86
  | .addAN8 n => formN8 0xC6 n
  | .adcAR rs => formOp (0x88 + rs.code)
  | .adcAHl => formOp 0x8E
  | .adcAN8 n => formN8 0xCE n
  | .subAR rs => formOp (0x90 + rs.code)
  | .subAHl => formOp 0x96
  | .subAN8 n => formN8 0xD6 n
  | .sbcAR rs => formOp (0x98 + rs.code)
  | .sbcAHl => formOp 0x9E
  | .sbcAN8 n => formN8 0xDE n
  | .andAR rs => formOp (0xA0 + rs.code)
  | .andAHl => formOp 0xA6
  | .andAN8 n => formN8 0xE6 n
  | .xorAR rs => formOp (0xA8 + rs.code)
  | .xorAHl => formOp 0xAE
  | .xorAN8 n => formN8 0xEE n
  | .orAR rs => formOp (0xB0 + rs.code)
  | .orAHl => formOp 0xB6
  | .orAN8 n => formN8 0xF6 n
  | .cpAR rs => formOp (0xB8 + rs.code)
  | .cpAHl => formOp 0xBE
  | .cpAN8 n => formN8 0xFE n
  | .incR rd => formOp (0x04 + 8 * rd.code)
  | .incHl => formOp 0x34
  | .decR rd => formOp (0x05 + 8 * rd.code)
  | .decHl => formOp 0x35
  | .daa => formOp 0x27
  | .cpl => formOp 0x2F
  | .scf => formOp 0x37
  | .ccf => formOp 0x3F
  | .addHlRr p => formOp (0x09 + 16 * p.code)
  | .addSpE8 e => formN8 0xE8 e
  | .incRr p => formOp (0x03 + 16 * p.code)
  | .decRr p => formOp (0x0B + 16 * p.code)
  | .rlca => formOp 0x07
  | .rrca => formOp 0x0F
  | .rla => formOp 0x17
  | .rra => formOp 0x1F
  | .rlcR rs => formPfx (0x00 + rs.code)
  | .rlcHl => formPfx 0x06
  | .rrcR rs => formPfx (0x08 + rs.code)
  | .rrcHl => formPfx 0x0E
  | .rlR rs => formPfx (0x10 + rs.code)
  | .rlHl => formPfx 0x16
  | .rrR rs => formPfx (0x18 + rs.code)
  | .rrHl => formPfx 0x1E
  | .slaR rs => formPfx (0x20 + rs.code)
  | .slaHl => formPfx 0x26
  | .sraR rs => formPfx (0x28 + rs.code)
  | .sraHl => formPfx 0x2E
  | .swapR rs => formPfx (0x30 + rs.code)
  | .swapHl => formPfx 0x36
  | .srlR rs => formPfx (0x38 + rs.code)
  | .srlHl => formPfx 0x3E
  | .bitBR b rs => formPfx (0x40 + 8 * b.val + rs.code)
  | .bitBHl b => formPfx (0x46 + 8 * b.val)
  | .resBR b rs => formPfx (0x80 + 8 * b.val + rs.code)
  | .resBHl b => formPfx (0x86 + 8 * b.val)
  | .setBR b rs => formPfx (0xC0 + 8 * b.val + rs.code)
  | .setBHl b => formPfx (0xC6 + 8 * b.val)
  | .jpN16 n => formN16 0xC3 n
  | .jpCcN16 cc n => formN16 (0xC2 + 8 * cc.code) n
  | .jpHl => formOp 0xE9
  | .jrE8 e => formN8 0x18 e
  | .jrCcE8 cc e => formN8 (0x20 + 8 * cc.code) e
  | .callN16 n => formN16 0xCD n
  | .callCcN16 cc n => formN16 (0xC4 + 8 * cc.code) n
  | .ret => formOp 0xC9
  | .retCc cc => formOp (0xC0 + 8 * cc.code)
  | .rstT t => formOp (0xC7 + 8 * t.val)
  | .reti => formOp 0xD9
  | .nop => formOp 0x00
  | .halt => formOp 0x76
  | .stop => formN8 0x10 0#8
  | .di => formOp 0xF3
  | .ei => formOp 0xFB
  | .illegalD3 => formOp 0xD3
  | .illegalDB => formOp 0xDB
  | .illegalDD => formOp 0xDD
  | .illegalE3 => formOp 0xE3
  | .illegalE4 => formOp 0xE4
  | .illegalEB => formOp 0xEB
  | .illegalEC => formOp 0xEC
  | .illegalED => formOp 0xED
  | .illegalF4 => formOp 0xF4
  | .illegalFC => formOp 0xFC
  | .illegalFD => formOp 0xFD
  | .pfx => formOp 0xCB

/-! ## The host's view of a table word -/

/-- The three bytes an instruction word gives in memory order: the low `nbits` of `w`, byte 0 the low byte, every bit above
`nbits` zero. -/
def tableBytes (nbits w : Nat) : List Byte :=
  let v := w % 2 ^ nbits
  [BitVec.ofNat 8 v, BitVec.ofNat 8 (v / 0x100), BitVec.ofNat 8 (v / 0x10000)]

/-- The instruction the decoder reads from a word of the opcode table, its first byte in the low bits. -/
def decodeTableWord (nbits w : Nat) : Option Instr :=
  match decode (tableBytes nbits w) with
  | .ok (i, _) => some i
  | .error _ => none

end Sys2Proof
end

