-- ==== Sys2Proof/Machine/Memory.lean ====
section
/-! DEFINITION. The canonical list of plain storage: reading one byte, writing one byte, and its well-formedness. -/

namespace Sys2Proof.Machine

/-- What an unlisted address reads as: every storage byte is 0x00 at reset (10_state.md R60, 20_memory.md R90); for the
cartridge image, which is a parameter, DESIGN CHOICE (log 3). -/
def Memory.unlisted : Byte := 0#8

/-- The byte stored at an address. -/
def Memory.read : Memory → Nat → Byte
  | [], _ => Memory.unlisted
  | (k, v) :: rest, a => if k = a then v else Memory.read rest a

/-- Put a cell at the head of a list unless its byte is what an unlisted address reads as. -/
def Memory.consCell (a : Nat) (v : Byte) (rest : Memory) : Memory :=
  if v = Memory.unlisted then rest else (a, v) :: rest

/-- Store one byte, keeping the canonical form. -/
def Memory.write : Memory → Nat → Byte → Memory
  | [], a, v => Memory.consCell a v []
  | (k, w) :: rest, a, v =>
    if a < k then Memory.consCell a v ((k, w) :: rest)
    else if a = k then Memory.consCell a v rest
    else (k, w) :: Memory.write rest a v

/-- Every cell's address is at least `low`, addresses rise strictly, and no cell holds what an unlisted address reads as. -/
def Memory.wfFrom : Nat → Memory → Bool
  | _, [] => true
  | low, (k, v) :: rest => decide (low ≤ k) && decide (v ≠ Memory.unlisted) && Memory.wfFrom (k + 1) rest

/-- The canonical form: equal memories are equal lists. -/
def Memory.wf (m : Memory) : Bool := Memory.wfFrom 0 m

/-- The addresses that plain storage backs: the cartridge image, VRAM, the work RAM, OAM and HRAM (20_memory.md R84). -/
def isStorage (a : Nat) : Bool :=
  decide (a ≤ 0x9FFF ∨ (0xC000 ≤ a ∧ a ≤ 0xDFFF) ∨ (0xFE00 ≤ a ∧ a ≤ 0xFE9F) ∨ (0xFF80 ≤ a ∧ a ≤ 0xFFFE))

/-- Every cell lies at an address that plain storage backs. -/
def Memory.onStorage (m : Memory) : Bool := m.all (fun cell => isStorage cell.1)

/-- Store a list of bytes at consecutive addresses. -/
def Memory.writeBytes (m : Memory) (a : Nat) : List Byte → Memory
  | [] => m
  | v :: rest => Memory.writeBytes (m.write a v) (a + 1) rest

end Sys2Proof.Machine
end

