-- ==== Sys2Proof/Machine/Timer.lean ====
section
/-! DEFINITION. Interrupt requests and the Timer (60_exceptions.md R423, 48_timer.md). -/

namespace Sys2Proof.Machine

/-- `RequestInterrupt(i)`: `IF[i] <- 1` and nothing else (60_exceptions.md R423). -/
def requestInterrupt (i : Nat) (s : State) : State :=
  { s with cpu := { s.cpu with ifReg := withBit s.cpu.ifReg i true } }

/-- The table of counter-bit indices, by `TAC[1:0]` (48_timer.md R321). -/
def timerBitIndex (tac : Byte) : Nat :=
  match tac.toNat % 4 with
  | 0 => 9
  | 1 => 3
  | 2 => 5
  | _ => 7

/-- `Timer.state()`: enable AND the selected counter bit (48_timer.md R322). -/
def timerSignal (t : Timer) : Bool := t.tac.getLsbD 2 && t.counter.getLsbD (timerBitIndex t.tac)

/-- `Timer.incTIMA()` (48_timer.md R324). -/
def incTima (s : State) : State :=
  if s.timer.tima = 0xFF#8 then
    requestInterrupt 2 { s with timer := { s.timer with tima := s.timer.tma } }
  else { s with timer := { s.timer with tima := s.timer.tima + 1#8 } }

/-- `Timer.change(action)`: the action brackets the edge detector, a falling edge increments TIMA (48_timer.md R323).
`changed` is the Timer after the action. -/
def timerChange (changed : Timer) (s : State) : State :=
  if timerSignal s.timer && !timerSignal changed then incTima { s with timer := changed }
  else { s with timer := changed }

/-- `Timer.tick(c)` (48_timer.md R325). -/
def timerTick (s : State) : State :=
  timerChange { s.timer with counter := s.timer.counter + Config.timerInc } s

/-- `Timer.read(a)`, `none` for NO_DATA (48_timer.md R326). -/
def timerRead (s : State) (a : Word) : Option Byte :=
  if a = 0xFF04#16 then some (hi s.timer.counter)
  else if a = 0xFF05#16 then some s.timer.tima
  else if a = 0xFF06#16 then some s.timer.tma
  else if a = 0xFF07#16 then some s.timer.tac
  else none

/-- The Timer's write side (48_timer.md R327 to R331). -/
def timerWrite (s : State) (a : Word) (v : Byte) : State :=
  if a = 0xFF04#16 then timerChange { s.timer with counter := 0#16 } s
  else if a = 0xFF05#16 then { s with timer := { s.timer with tima := v } }
  else if a = 0xFF06#16 then { s with timer := { s.timer with tma := v } }
  else if a = 0xFF07#16 then timerChange { s.timer with tac := v } s
  else s

end Sys2Proof.Machine
end

