-- ==== Sys2Proof/Machine/LcdRegs.lean ====
section
/-! DEFINITION. The Display Controller as a bus component: its register bank, VRAM and OAM, the LY/LYC comparison and the
power-down transition (49_display.md section 2, R359, R362, R364). -/

namespace Sys2Proof.Machine

/-- `Lcd.compare()` (49_display.md R359). -/
def lcdCompare (s : State) : State :=
  if s.lcd.ly = s.lcd.lyc then
    let s' : State := { s with lcd := { s.lcd with stat := withBit s.lcd.stat 2 true } }
    if s.lcd.stat.getLsbD 6 then requestInterrupt 1 s' else s'
  else { s with lcd := { s.lcd with stat := withBit s.lcd.stat 2 false } }

/-- `Lcd.setLY(v)` (49_display.md R359). -/
def lcdSetLy (v : Byte) (s : State) : State := lcdCompare { s with lcd := { s.lcd with ly := v } }

/-- `STAT[1:0] <- m`, the mode field alone (10_state.md R42). -/
def withMode (stat : Byte) (m : Pixel) : Byte := stat.extractLsb' 2 6 ++ m

/-- `Lcd.setMode(m)`: the mode entry and its interrupt; mode 3 has no enable bit (49_display.md R362). -/
def lcdSetMode (m : Pixel) (s : State) : State :=
  let s' : State := { s with lcd := { s.lcd with stat := withMode s.lcd.stat m } }
  if m ≠ 3#2 ∧ s.lcd.stat.getLsbD (3 + m.toNat) = true then requestInterrupt 1 s' else s'

/-- `Lcd.powerDown()` (49_display.md R364). -/
def lcdPowerDown (s : State) : State :=
  let s1 : State := { s with lcd := { s.lcd with stat := withMode s.lcd.stat 0#2 } }
  let s2 := lcdSetLy 0#8 s1
  { s2 with lcd := { s2.lcd with next := none } }

/-- `Lcd.writeLCDC(v)` (49_display.md R353). -/
def lcdWriteLcdc (v : Byte) (s : State) : State :=
  let s' : State := { s with lcd := { s.lcd with lcdc := v } }
  if s.lcd.lcdc.getLsbD 7 && !v.getLsbD 7 then lcdPowerDown s' else s'

/-- Write to STAT: bits 7..3 stored, bits 2..0 kept (49_display.md R354). -/
def lcdWriteStat (v : Byte) (s : State) : State :=
  { s with lcd := { s.lcd with stat := (v &&& 0xF8#8) ||| (s.lcd.stat &&& 0x07#8) } }

/-- `Lcd.writeDMA(v)`: latch the source page and start the copy (49_display.md R356). -/
def lcdWriteDma (v : Byte) (s : State) : State :=
  { s with lcd := { s.lcd with dma := v, dmaSrc := v, dmaIdx := 0 } }

/-- Write to LYC: stored, and the comparison runs (49_display.md R357). -/
def lcdWriteLyc (v : Byte) (s : State) : State := lcdCompare { s with lcd := { s.lcd with lyc := v } }

/-- The stored byte of the register at offset `i` of the bank 0xFF40..0xFF4B (10_state.md R40, 49_display.md R350). -/
def lcdRegRead (r : Lcd) (i : Nat) : Option Byte :=
  match i with
  | 0 => some r.lcdc
  | 1 => some r.stat
  | 2 => some r.scy
  | 3 => some r.scx
  | 4 => some r.ly
  | 5 => some r.lyc
  | 6 => some r.dma
  | 7 => some r.bgp
  | 8 => some r.obp0
  | 9 => some r.obp1
  | 10 => some r.wy
  | 11 => some r.wx
  | _ => none

/-- A write to the register at offset `i` of the bank 0xFF40..0xFF4B (49_display.md R352 to R357). -/
def lcdRegWrite (i : Nat) (v : Byte) (s : State) : State :=
  match i with
  | 0 => lcdWriteLcdc v s
  | 1 => lcdWriteStat v s
  | 2 => { s with lcd := { s.lcd with scy := v } }
  | 3 => { s with lcd := { s.lcd with scx := v } }
  | 4 => s
  | 5 => lcdWriteLyc v s
  | 6 => lcdWriteDma v s
  | 7 => { s with lcd := { s.lcd with bgp := v } }
  | 8 => { s with lcd := { s.lcd with obp0 := v } }
  | 9 => { s with lcd := { s.lcd with obp1 := v } }
  | 10 => { s with lcd := { s.lcd with wy := v } }
  | 11 => { s with lcd := { s.lcd with wx := v } }
  | _ => s

/-- Whether VRAM or OAM decodes an address (20_memory.md R77). -/
def lcdDecodesRam (a : Word) : Bool := inWindow 0x8000 0x9FFF a || inWindow 0xFE00 0xFE9F a

/-- `Lcd.read(a)`, `none` for NO_DATA (49_display.md R350). -/
def lcdRead (s : State) (a : Word) : Option Byte :=
  if lcdDecodesRam a then some (s.mem.read a.toNat)
  else if inWindow 0xFF40 0xFF4B a then lcdRegRead s.lcd (a.toNat - 0xFF40)
  else none

/-- The Display Controller's write side (49_display.md R351 to R358). -/
def lcdWrite (s : State) (a : Word) (v : Byte) : State :=
  if lcdDecodesRam a then { s with mem := s.mem.write a.toNat v }
  else if inWindow 0xFF40 0xFF4B a then lcdRegWrite (a.toNat - 0xFF40) v s
  else s

end Sys2Proof.Machine
end

