-- ==== Sys2Proof/Machine/Ops.lean ====
section
/-! DEFINITION. The named operations of the machine: the bus and its components, 16-bit accesses, the stack, the commit of
an instruction, instruction fetch, taking an interrupt, the return from one, and raising a fatal condition. -/

namespace Sys2Proof.Machine

/-! ## The bus -/

/-- `Cpu.read(a)`, `none` for NO_DATA (20_memory.md R75). -/
def cpuRead (s : State) (a : Word) : Option Byte :=
  if inWindow 0xFF80 0xFFFE a then some (s.mem.read a.toNat)
  else if a = 0xFF0F#16 then some s.cpu.ifReg
  else if a = 0xFFFF#16 then some s.cpu.ie
  else none

/-- `Cpu.write(a, v)` (20_memory.md R75). -/
def cpuWrite (s : State) (a : Word) (v : Byte) : State :=
  if inWindow 0xFF80 0xFFFE a then { s with mem := s.mem.write a.toNat v }
  else if a = 0xFF0F#16 then { s with cpu := { s.cpu with ifReg := v } }
  else if a = 0xFFFF#16 then { s with cpu := { s.cpu with ie := v } }
  else s

/-- Where the work RAM keeps the byte of an address: its window, and the echo of it 0x2000 above (20_memory.md R90). -/
def workRamCell (a : Word) : Option Nat :=
  if inWindow 0xC000 0xDFFF a then some a.toNat
  else if inWindow 0xE000 0xFDFF a then some (a.toNat - 0x2000)
  else none

/-- `read` of a platform component, `none` for NO_DATA (20_memory.md R72, R90; log 4). -/
def platformRead (s : State) (a : Word) : PlatformComponent → Option Byte
  | .cartridge => if inWindow 0x0000 0x7FFF a then some (s.mem.read a.toNat) else none
  | .workRam => (workRamCell a).map s.mem.read
  | .memory first last _ cells => if inWindow first last a then some (cells.read a.toNat) else none
  | .external number own => Config.externalRead number own s.now a

/-- Interrupt requests, one after another (20_memory.md R91). -/
def requestAll (l : List (Fin 5)) (s : State) : State := l.foldl (fun t i => requestInterrupt i.val t) s

/-- `write` of a platform component: the component after it, and the machine after it (20_memory.md R72, R90, R91; log 4). -/
def PlatformComponent.write (a : Word) (v : Byte) (s : State) : PlatformComponent → PlatformComponent × State
  | .cartridge => (.cartridge, s)
  | .workRam =>
    match workRamCell a with
    | some k => (.workRam, { s with mem := s.mem.write k v })
    | none => (.workRam, s)
  | .memory first last writable cells =>
    (.memory first last writable (if writable && inWindow first last a then cells.write a.toNat v else cells), s)
  | .external number own =>
    let r := Config.externalWrite number own s.now a v
    (.external number r.1, requestAll r.2 s)

/-- The write delivered to every component of a list, in order: the components after it, and the machine after it. -/
def writeEach (a : Word) (v : Byte) : List PlatformComponent → State → List PlatformComponent × State
  | [], s => ([], s)
  | c :: rest, s =>
    let r := PlatformComponent.write a v s c
    let u := writeEach a v rest r.2
    (r.1 :: u.1, u.2)

/-- The platform's part of a bus write (20_memory.md R74). -/
def platformWrite (a : Word) (v : Byte) (s : State) : State :=
  let u := writeEach a v s.platform s
  { u.2 with platform := u.1 }

/-- The components attached to the bus: the three units of the core, and those of the platform (20_memory.md R71). -/
inductive Component where
  | cpu
  | timer
  | lcd
  | attached (c : PlatformComponent)
  deriving DecidableEq, Repr

/-- The attached list in attachment order, `[Cpu, Timer, Lcd] ++ platform` (20_memory.md R71). -/
def State.components (s : State) : List Component := [.cpu, .timer, .lcd] ++ s.platform.map .attached

/-- `read` of a component, `none` for NO_DATA (20_memory.md R72, R75 to R77, R90). -/
def componentRead (s : State) (a : Word) : Component → Option Byte
  | .cpu => cpuRead s a
  | .timer => timerRead s a
  | .lcd => lcdRead s a
  | .attached c => platformRead s a c

/-- `Bus.read(a)`: the first answer in attachment order, else the open bus; `MemRead(a, 1)` (20_memory.md R73). -/
def busRead (s : State) (a : Word) : Byte := (s.components.findSome? (componentRead s a)).getD Config.openBus

/-- `Bus.write(a, v)`: delivered to every component in attachment order; `MemWrite(a, 1, v)` (20_memory.md R71, R74). -/
def busWrite (s : State) (a : Word) (v : Byte) : State :=
  platformWrite a v (lcdWrite (timerWrite (cpuWrite s a v) a v) a v)

/-- Whether a unit of the core decodes an address, so that no platform component is asked (20_memory.md R73, R75 to R77). -/
def coreDecodes (a : Word) : Bool :=
  lcdDecodesRam a || inWindow 0xFF04 0xFF07 a || a == 0xFF0F#16 || inWindow 0xFF40 0xFF4B a || inWindow 0xFF80 0xFFFF a

/-- `MemRead(a, 2)`, low byte at the low address (00_scope.md R13, 20_memory.md R80). -/
def busRead16 (s : State) (a : Word) : Word := joinBytes (busRead s (a + 1#16)) (busRead s a)

/-- `MemWrite(a, 2, v)`, low byte first (00_scope.md R13, 20_memory.md R80). -/
def busWrite16 (s : State) (a : Word) (v : Word) : State := busWrite (busWrite s a (lo v)) (a + 1#16) (hi v)

/-! ## Single registers -/

/-- Write SP. -/
def State.setSp (s : State) (v : Word) : State := { s with cpu := { s.cpu with sp := v } }

/-- Write PC. -/
def State.setPc (s : State) (v : Word) : State := { s with cpu := { s.cpu with pc := v } }

/-- Write IME (10_state.md R29). -/
def State.setIme (s : State) (x : Bool) : State := { s with cpu := { s.cpu with ime := x } }

/-- Write `Cpu.next`; `none` is INF (10_state.md R33). -/
def State.setNext (s : State) (n : Option Nat) : State := { s with cpu := { s.cpu with next := n } }

/-! ## The stack -/

/-- `Push16(v)` (42_load16_stack.md R204). -/
def push16 (v : Word) (s : State) : State :=
  busWrite16 (s.setSp (s.cpu.sp - 2#16)) (s.cpu.sp - 2#16) v

/-- The word `Pop16()` returns (42_load16_stack.md R205). -/
def popValue (s : State) : Word := busRead16 s s.cpu.sp

/-- The state `Pop16()` leaves (42_load16_stack.md R205). -/
def popState (s : State) : State := s.setSp (s.cpu.sp + 2#16)

/-! ## Fetch and commit -/

/-- The instruction at PC, its bytes fetched by bus reads at PC, PC + 1 and PC + 2; the reads past its length have no
effect (30_encoding.md R111, 20_memory.md R83, R94; log 8). -/
def fetch (s : State) : Instr :=
  decodeBytes (busRead s s.cpu.pc) (busRead s (s.cpu.pc + 1#16)) (busRead s (s.cpu.pc + 2#16))

/-- `(PC + length) mod 0x10000`, `next` of 46_control.md (30_encoding.md R112). -/
def nextPc (len : Nat) (s : State) : Word := s.cpu.pc + BitVec.ofNat 16 len

/-- Commit an overriding program counter and the cost: `pc <- target`, `Cpu.next <- c + cost`, c the current tick
(30_encoding.md R112, R113). -/
def jumpTo (target : Word) (cost : Nat) (s : State) : State := (s.setPc target).setNext (some (s.now + cost))

/-- Commit the default program counter and the cost (30_encoding.md R112, R113). -/
def commit (len cost : Nat) (s : State) : State := jumpTo (nextPc len s) cost s

/-! ## Interrupts and fatal conditions -/

/-- `raise Fatal(kind)`: the kind is recorded and nothing else changes (60_exceptions.md R440). -/
def raiseFatal (kind : FatalKind) (s : State) : State := { s with fatal := some kind }

/-- `VECTOR[i] = 0x0040 + 8 * i` (60_exceptions.md R431). -/
def vector (i : Nat) : Word := BitVec.ofNat 16 (0x0040 + 8 * i)

/-- `Cpu.service(c, i)`, taking interrupt `i` at the current tick: clear its flag bit, push PC, clear IME, go to the vector,
charge 5 cycles; an index of 5 to 7 is fatal (60_exceptions.md R430, R445). -/
def takeInterrupt (i : Nat) (s : State) : State :=
  if i ≥ 5 then raiseFatal (.badInterruptIndex i) s
  else
    let s1 : State := { s with cpu := { s.cpu with ifReg := withBit s.cpu.ifReg i false } }
    jumpTo (vector i) Config.intCycles ((push16 s.cpu.pc s1).setIme false)

/-- The return from an interrupt, RETI's effect: `pc <- Pop16()`, `IME <- 1`, at a cost (46_control.md R291,
60_exceptions.md R433). -/
def returnFromInterrupt (cost : Nat) (s : State) : State := jumpTo (popValue s) cost ((popState s).setIme true)

/-- `IE & IF`, over all 8 bits (60_exceptions.md R425, R428). -/
def pendingBits (s : State) : Byte := s.cpu.ie &&& s.cpu.ifReg

/-- `lowestSetBit(p)`, `none` when no bit is set (60_exceptions.md R426, R429). -/
def lowestSetBit (p : Byte) : Option Nat := (List.range 8).find? (fun i => p.getLsbD i)

/-! ## Placing bytes from outside the machine -/

/-- The cell of plain storage that answers a read of an address, the cartridge image's among them. -/
def storageCell (a : Word) : Option Nat :=
  match workRamCell a with
  | some k => some k
  | none => if isStorage a.toNat then some a.toNat else none

/-- Place bytes in the plain storage behind the bus from an address on, as construction or a loader does: also into the
cartridge image, which no bus write reaches. A byte whose address has no storage is dropped. -/
def placeBytes (a : Word) : List Byte → State → State
  | [], s => s
  | v :: rest, s =>
    match storageCell a with
    | some k => placeBytes (a + 1#16) rest { s with mem := s.mem.write k v }
    | none => placeBytes (a + 1#16) rest s

/-- The cartridge image, from its first byte (20_memory.md R90): bytes past 0x8000 are ignored. -/
def State.withCartridge (image : List Byte) (s : State) : State :=
  placeBytes 0#16 (image.take 0x8000) s

end Sys2Proof.Machine
end

