-- ==== Sys2Proof/Machine/Operands.lean ====
section
/-! DEFINITION. Operand forms: the register fields, the 16-bit views, the memory operands and the conditions
(30_encoding.md R116 to R123, 10_state.md R21, R24). -/

namespace Sys2Proof.Machine

/-- `x[i]`, reading the register of an r8 field (00_scope.md R12, 30_encoding.md R116). -/
def State.reg (s : State) : Reg8 → Byte
  | .b => s.cpu.b
  | .c => s.cpu.c
  | .d => s.cpu.d
  | .e => s.cpu.e
  | .h => s.cpu.h
  | .l => s.cpu.l
  | .a => s.cpu.a

/-- `x[i] <- v` (00_scope.md R12). -/
def State.setReg (s : State) (r : Reg8) (v : Byte) : State :=
  match r with
  | .b => { s with cpu := { s.cpu with b := v } }
  | .c => { s with cpu := { s.cpu with c := v } }
  | .d => { s with cpu := { s.cpu with d := v } }
  | .e => { s with cpu := { s.cpu with e := v } }
  | .h => { s with cpu := { s.cpu with h := v } }
  | .l => { s with cpu := { s.cpu with l := v } }
  | .a => { s with cpu := { s.cpu with a := v } }

/-- The view `BC = B :: C` (10_state.md R21). -/
def State.bc (s : State) : Word := joinBytes s.cpu.b s.cpu.c

/-- The view `DE = D :: E` (10_state.md R21). -/
def State.de (s : State) : Word := joinBytes s.cpu.d s.cpu.e

/-- The view `HL = H :: L` (10_state.md R21). -/
def State.hl (s : State) : Word := joinBytes s.cpu.h s.cpu.l

/-- The view `AF = A :: F` (10_state.md R21). -/
def State.af (s : State) : Word := joinBytes s.cpu.a s.cpu.f

/-- Write the view BC: both bytes (10_state.md R21). -/
def State.setBc (s : State) (v : Word) : State := { s with cpu := { s.cpu with b := hi v, c := lo v } }

/-- Write the view DE: both bytes (10_state.md R21). -/
def State.setDe (s : State) (v : Word) : State := { s with cpu := { s.cpu with d := hi v, e := lo v } }

/-- Write the view HL: both bytes (10_state.md R21). -/
def State.setHl (s : State) (v : Word) : State := { s with cpu := { s.cpu with h := hi v, l := lo v } }

/-- Write the view AF: F takes the low byte masked to the 4 flag bits (10_state.md R24). -/
def State.setAf (s : State) (v : Word) : State := { s with cpu := { s.cpu with a := hi v, f := lo v &&& 0xF0#8 } }

/-- `rr[p]` of the field r16 (30_encoding.md R117). -/
def State.pair (s : State) : Pair → Word
  | .bc => s.bc
  | .de => s.de
  | .hl => s.hl
  | .sp => s.cpu.sp

/-- `rr[p] <- v` of the field r16 (30_encoding.md R117). -/
def State.setPair (s : State) (p : Pair) (v : Word) : State :=
  match p with
  | .bc => s.setBc v
  | .de => s.setDe v
  | .hl => s.setHl v
  | .sp => s.setSp v

/-- `rr[p]` of the field r16stk (30_encoding.md R118). -/
def State.stackPair (s : State) : StackPair → Word
  | .bc => s.bc
  | .de => s.de
  | .hl => s.hl
  | .af => s.af

/-- `rr[p] <- v` of the field r16stk (30_encoding.md R118). -/
def State.setStackPair (s : State) (p : StackPair) (v : Word) : State :=
  match p with
  | .bc => s.setBc v
  | .de => s.setDe v
  | .hl => s.setHl v
  | .af => s.setAf v

/-- The operand `(HL)`: the byte at address HL (30_encoding.md R116). -/
def State.atHl (s : State) : Byte := busRead s s.hl

/-- Write the operand `(HL)`. -/
def State.setAtHl (s : State) (v : Byte) : State := busWrite s s.hl v

/-- The high-page address `0xFF00 + n` of the forms LDH, `(C)` (30_encoding.md R123). -/
def highPage (n : Byte) : Word := 0xFF00#16 + n.setWidth 16

/-- `cond(c)` (46_control.md R292, 30_encoding.md R120). -/
def State.cond (s : State) : Cond → Bool
  | .nz => !s.fZ
  | .z => s.fZ
  | .nc => !s.fC
  | .c => s.fC

end Sys2Proof.Machine
end

