-- ==== Sys2Proof/Machine/Load16.lean ====
section
/-! DEFINITION. 16-bit load and stack instructions (42_load16_stack.md). -/

namespace Sys2Proof.Machine

/-- `LD rr,n16` (R200). -/
def execLdRrN16 (p : Pair) (n : Word) (s : State) : Result :=
  .next (commit 3 3 (s.setPair p n))

/-- `LD (n16),SP` (R201). -/
def execLdN16Sp (n : Word) (s : State) : Result :=
  .next (commit 3 5 (busWrite16 s n s.cpu.sp))

/-- `LD SP,HL` (R202). -/
def execLdSpHl (s : State) : Result :=
  .next (commit 1 2 (s.setSp s.hl))

/-- The flags `(0, 0, f.H, f.C)` of the two additions to SP (42_load16_stack.md R203, 44_arith16.md R251). -/
def spAddFlags (f : Flags) (s : State) : State := s.setFlags (some false) (some false) (some f.h) (some f.c)

/-- `LD HL,SP+e8` (R203). -/
def execLdHlSpE8 (e : Byte) (s : State) : Result :=
  let r := aluAdd16Low s.cpu.sp (sext16 e)
  .next (commit 2 3 (spAddFlags r.flags (s.setHl r.value)))

/-- `PUSH rr` (R204). -/
def execPushRr (p : StackPair) (s : State) : Result :=
  .next (commit 1 4 (push16 (s.stackPair p) s))

/-- `POP rr` (R205). -/
def execPopRr (p : StackPair) (s : State) : Result :=
  .next (commit 1 3 ((popState s).setStackPair p (popValue s)))

end Sys2Proof.Machine
end

