-- ==== Sys2Proof/Machine/Arith16.lean ====
section
/-! DEFINITION. 16-bit arithmetic instructions (44_arith16.md). -/

namespace Sys2Proof.Machine

/-- `ADD HL,rr`: `(-, 0, f.H, f.C)` (R250). -/
def execAddHlRr (p : Pair) (s : State) : Result :=
  let r := aluAdd16High s.hl (s.pair p)
  .next (commit 1 2 ((s.setHl r.value).setFlags none (some false) (some r.flags.h) (some r.flags.c)))

/-- `ADD SP,e8` (R251). -/
def execAddSpE8 (e : Byte) (s : State) : Result :=
  let r := aluAdd16Low s.cpu.sp (sext16 e)
  .next (commit 2 4 (spAddFlags r.flags (s.setSp r.value)))

/-- `INC rr` (R252). -/
def execIncRr (p : Pair) (s : State) : Result :=
  .next (commit 1 2 (s.setPair p (s.pair p + 1#16)))

/-- `DEC rr` (R253). -/
def execDecRr (p : Pair) (s : State) : Result :=
  .next (commit 1 2 (s.setPair p (s.pair p - 1#16)))

end Sys2Proof.Machine
end

