-- ==== Sys2Proof/Machine/Arith8.lean ====
section
/-! DEFINITION. 8-bit arithmetic and logic instructions (43_arith8.md); the flag policies are R243's. -/

namespace Sys2Proof.Machine

/-! ## The operations, the right operand already read -/

/-- `ADD`, and `ADC` with the live carry: `(f.Z, 0, f.H, f.C)` (R215, R218). -/
def accAdd (v : Byte) (cin : Bool) (s : State) : State :=
  let r := aluAdd s.cpu.a v cin
  (s.setReg .a r.value).setFlags (some r.flags.z) (some false) (some r.flags.h) (some r.flags.c)

/-- `SUB`, and `SBC` with the live carry: `(f.Z, 1, f.H, f.C)` (R221, R224). -/
def accSub (v : Byte) (bin : Bool) (s : State) : State :=
  let r := aluSub s.cpu.a v bin
  (s.setReg .a r.value).setFlags (some r.flags.z) (some true) (some r.flags.h) (some r.flags.c)

/-- `AND`: `(f.Z, 0, 1, 0)` (R227). -/
def accAnd (v : Byte) (s : State) : State :=
  let r := aluAnd s.cpu.a v
  (s.setReg .a r.value).setFlags (some r.flags.z) (some false) (some true) (some false)

/-- `XOR`: `(f.Z, 0, 0, 0)` (R230). -/
def accXor (v : Byte) (s : State) : State :=
  let r := aluXor s.cpu.a v
  (s.setReg .a r.value).setFlags (some r.flags.z) (some false) (some false) (some false)

/-- `OR`: `(f.Z, 0, 0, 0)` (R233). -/
def accOr (v : Byte) (s : State) : State :=
  let r := aluOr s.cpu.a v
  (s.setReg .a r.value).setFlags (some r.flags.z) (some false) (some false) (some false)

/-- `CP`: the flags of SUB, the value discarded (R236). -/
def accCp (v : Byte) (s : State) : State :=
  let r := aluSub s.cpu.a v false
  s.setFlags (some r.flags.z) (some true) (some r.flags.h) (some r.flags.c)

/-- The flags `(f.Z, n, f.H, -)` of INC and DEC (R239, R241). -/
def stepFlags (n : Bool) (f : Flags) (s : State) : State := s.setFlags (some f.z) (some n) (some f.h) none

/-! ## The instructions -/

/-- `ADD A,r` (R215). -/
def execAddAR (rs : Reg8) (s : State) : Result :=
  .next (commit 1 1 (accAdd (s.reg rs) false s))

/-- `ADD A,(HL)` (R216). -/
def execAddAHl (s : State) : Result :=
  .next (commit 1 2 (accAdd s.atHl false s))

/-- `ADD A,n8` (R217). -/
def execAddAN8 (n : Byte) (s : State) : Result :=
  .next (commit 2 2 (accAdd n false s))

/-- `ADC A,r` (R218). -/
def execAdcAR (rs : Reg8) (s : State) : Result :=
  .next (commit 1 1 (accAdd (s.reg rs) s.fC s))

/-- `ADC A,(HL)` (R219). -/
def execAdcAHl (s : State) : Result :=
  .next (commit 1 2 (accAdd s.atHl s.fC s))

/-- `ADC A,n8` (R220). -/
def execAdcAN8 (n : Byte) (s : State) : Result :=
  .next (commit 2 2 (accAdd n s.fC s))

/-- `SUB A,r` (R221). -/
def execSubAR (rs : Reg8) (s : State) : Result :=
  .next (commit 1 1 (accSub (s.reg rs) false s))

/-- `SUB A,(HL)` (R222). -/
def execSubAHl (s : State) : Result :=
  .next (commit 1 2 (accSub s.atHl false s))

/-- `SUB A,n8` (R223). -/
def execSubAN8 (n : Byte) (s : State) : Result :=
  .next (commit 2 2 (accSub n false s))

/-- `SBC A,r` (R224). -/
def execSbcAR (rs : Reg8) (s : State) : Result :=
  .next (commit 1 1 (accSub (s.reg rs) s.fC s))

/-- `SBC A,(HL)` (R225). -/
def execSbcAHl (s : State) : Result :=
  .next (commit 1 2 (accSub s.atHl s.fC s))

/-- `SBC A,n8` (R226). -/
def execSbcAN8 (n : Byte) (s : State) : Result :=
  .next (commit 2 2 (accSub n s.fC s))

/-- `AND A,r` (R227). -/
def execAndAR (rs : Reg8) (s : State) : Result :=
  .next (commit 1 1 (accAnd (s.reg rs) s))

/-- `AND A,(HL)` (R228). -/
def execAndAHl (s : State) : Result :=
  .next (commit 1 2 (accAnd s.atHl s))

/-- `AND A,n8` (R229). -/
def execAndAN8 (n : Byte) (s : State) : Result :=
  .next (commit 2 2 (accAnd n s))

/-- `XOR A,r` (R230). -/
def execXorAR (rs : Reg8) (s : State) : Result :=
  .next (commit 1 1 (accXor (s.reg rs) s))

/-- `XOR A,(HL)` (R231). -/
def execXorAHl (s : State) : Result :=
  .next (commit 1 2 (accXor s.atHl s))

/-- `XOR A,n8` (R232). -/
def execXorAN8 (n : Byte) (s : State) : Result :=
  .next (commit 2 2 (accXor n s))

/-- `OR A,r` (R233). -/
def execOrAR (rs : Reg8) (s : State) : Result :=
  .next (commit 1 1 (accOr (s.reg rs) s))

/-- `OR A,(HL)` (R234). -/
def execOrAHl (s : State) : Result :=
  .next (commit 1 2 (accOr s.atHl s))

/-- `OR A,n8` (R235). -/
def execOrAN8 (n : Byte) (s : State) : Result :=
  .next (commit 2 2 (accOr n s))

/-- `CP A,r` (R236). -/
def execCpAR (rs : Reg8) (s : State) : Result :=
  .next (commit 1 1 (accCp (s.reg rs) s))

/-- `CP A,(HL)` (R237). -/
def execCpAHl (s : State) : Result :=
  .next (commit 1 2 (accCp s.atHl s))

/-- `CP A,n8` (R238). -/
def execCpAN8 (n : Byte) (s : State) : Result :=
  .next (commit 2 2 (accCp n s))

/-- `INC r` (R239). -/
def execIncR (rd : Reg8) (s : State) : Result :=
  let r := aluAdd (s.reg rd) 1#8 false
  .next (commit 1 1 (stepFlags false r.flags (s.setReg rd r.value)))

/-- `INC (HL)` (R240). -/
def execIncHl (s : State) : Result :=
  let r := aluAdd s.atHl 1#8 false
  .next (commit 1 3 (stepFlags false r.flags (s.setAtHl r.value)))

/-- `DEC r` (R241). -/
def execDecR (rd : Reg8) (s : State) : Result :=
  let r := aluSub (s.reg rd) 1#8 false
  .next (commit 1 1 (stepFlags true r.flags (s.setReg rd r.value)))

/-- `DEC (HL)` (R242). -/
def execDecHl (s : State) : Result :=
  let r := aluSub s.atHl 1#8 false
  .next (commit 1 3 (stepFlags true r.flags (s.setAtHl r.value)))

/-- `DAA`: `(f.Z, -, 0, f.C)` (R244). -/
def execDaa (s : State) : Result :=
  let r := aluBcdAdjust s.cpu.a s.fN s.fH s.fC
  .next (commit 1 1 ((s.setReg .a r.value).setFlags (some r.flags.z) none (some false) (some r.flags.c)))

/-- `CPL`: `(-, 1, 1, -)` (R245). -/
def execCpl (s : State) : Result :=
  .next (commit 1 1 ((s.setReg .a (~~~s.cpu.a)).setFlags none (some true) (some true) none))

/-- `SCF`: `(-, 0, 0, 1)` (R246). -/
def execScf (s : State) : Result :=
  .next (commit 1 1 (s.setFlags none (some false) (some false) (some true)))

/-- `CCF`: `(-, 0, 0, 1 - fC)` (R247). -/
def execCcf (s : State) : Result :=
  .next (commit 1 1 (s.setFlags none (some false) (some false) (some !s.fC)))

end Sys2Proof.Machine
end

