-- ==== Sys2Proof/Machine/Control.lean ====
section
/-! DEFINITION. Control-transfer instructions (46_control.md). The operand is part of the instruction, so it is read before
the condition is tested and before any push (R286, R292). -/

namespace Sys2Proof.Machine

/-- `JP n16` (R281). -/
def execJpN16 (n : Word) (s : State) : Result :=
  .next (jumpTo n 4 s)

/-- `JP cc,n16` (R282). -/
def execJpCcN16 (cc : Cond) (n : Word) (s : State) : Result :=
  .next (if s.cond cc then jumpTo n 4 s else commit 3 3 s)

/-- `JP HL` (R283). -/
def execJpHl (s : State) : Result :=
  .next (jumpTo s.hl 1 s)

/-- `JR e8` (R284). -/
def execJrE8 (e : Byte) (s : State) : Result :=
  .next (jumpTo (nextPc 2 s + sext16 e) 3 s)

/-- `JR cc,e8` (R285). -/
def execJrCcE8 (cc : Cond) (e : Byte) (s : State) : Result :=
  .next (if s.cond cc then jumpTo (nextPc 2 s + sext16 e) 3 s else commit 2 2 s)

/-- `CALL n16` (R286). -/
def execCallN16 (n : Word) (s : State) : Result :=
  .next (jumpTo n 6 (push16 (nextPc 3 s) s))

/-- `CALL cc,n16` (R287). -/
def execCallCcN16 (cc : Cond) (n : Word) (s : State) : Result :=
  .next (if s.cond cc then jumpTo n 6 (push16 (nextPc 3 s) s) else commit 3 3 s)

/-- `RET` (R288). -/
def execRet (s : State) : Result :=
  .next (jumpTo (popValue s) 4 (popState s))

/-- `RET cc` (R289). -/
def execRetCc (cc : Cond) (s : State) : Result :=
  .next (if s.cond cc then jumpTo (popValue s) 5 (popState s) else commit 1 2 s)

/-- `RST t` (R290). -/
def execRstT (t : Fin 8) (s : State) : Result :=
  .next (jumpTo (BitVec.ofNat 16 (8 * t.val)) 4 (push16 (nextPc 1 s) s))

/-- `RETI` (R291). -/
def execReti (s : State) : Result :=
  .next (returnFromInterrupt 4 s)

end Sys2Proof.Machine
end

