-- ==== Sys2Proof/Machine/Load8.lean ====
section
/-! DEFINITION. 8-bit load and store instructions (41_load8.md). None touches F. -/

namespace Sys2Proof.Machine

/-- `LD r,r'` (R170). -/
def execLdRR (rd rs : Reg8) (s : State) : Result :=
  .next (commit 1 1 (s.setReg rd (s.reg rs)))

/-- `LD r,n8` (R171). -/
def execLdRN8 (rd : Reg8) (n : Byte) (s : State) : Result :=
  .next (commit 2 2 (s.setReg rd n))

/-- `LD r,(HL)` (R172). -/
def execLdRHl (rd : Reg8) (s : State) : Result :=
  .next (commit 1 2 (s.setReg rd s.atHl))

/-- `LD (HL),r` (R173). -/
def execLdHlR (rs : Reg8) (s : State) : Result :=
  .next (commit 1 2 (s.setAtHl (s.reg rs)))

/-- `LD (HL),n8` (R174). -/
def execLdHlN8 (n : Byte) (s : State) : Result :=
  .next (commit 2 3 (s.setAtHl n))

/-- `LD A,(BC)` (R175). -/
def execLdABc (s : State) : Result :=
  .next (commit 1 2 (s.setReg .a (busRead s s.bc)))

/-- `LD A,(DE)` (R176). -/
def execLdADe (s : State) : Result :=
  .next (commit 1 2 (s.setReg .a (busRead s s.de)))

/-- `LD (BC),A` (R177). -/
def execLdBcA (s : State) : Result :=
  .next (commit 1 2 (busWrite s s.bc s.cpu.a))

/-- `LD (DE),A` (R178). -/
def execLdDeA (s : State) : Result :=
  .next (commit 1 2 (busWrite s s.de s.cpu.a))

/-- `LD A,(HL+)` (R179). -/
def execLdAHlInc (s : State) : Result :=
  .next (commit 1 2 ((s.setReg .a s.atHl).setHl (s.hl + 1#16)))

/-- `LD A,(HL-)` (R180). -/
def execLdAHlDec (s : State) : Result :=
  .next (commit 1 2 ((s.setReg .a s.atHl).setHl (s.hl - 1#16)))

/-- `LD (HL+),A` (R181). -/
def execLdHlIncA (s : State) : Result :=
  .next (commit 1 2 ((s.setAtHl s.cpu.a).setHl (s.hl + 1#16)))

/-- `LD (HL-),A` (R182). -/
def execLdHlDecA (s : State) : Result :=
  .next (commit 1 2 ((s.setAtHl s.cpu.a).setHl (s.hl - 1#16)))

/-- `LD A,(n16)` (R183). -/
def execLdAN16 (n : Word) (s : State) : Result :=
  .next (commit 3 4 (s.setReg .a (busRead s n)))

/-- `LD (n16),A` (R184). -/
def execLdN16A (n : Word) (s : State) : Result :=
  .next (commit 3 4 (busWrite s n s.cpu.a))

/-- `LDH A,(n8)` (R185). -/
def execLdhAN8 (n : Byte) (s : State) : Result :=
  .next (commit 2 3 (s.setReg .a (busRead s (highPage n))))

/-- `LDH (n8),A` (R186). -/
def execLdhN8A (n : Byte) (s : State) : Result :=
  .next (commit 2 3 (busWrite s (highPage n) s.cpu.a))

/-- `LD A,(C)` (R187). -/
def execLdAC (s : State) : Result :=
  .next (commit 1 2 (s.setReg .a (busRead s (highPage s.cpu.c))))

/-- `LD (C),A` (R188). -/
def execLdCA (s : State) : Result :=
  .next (commit 1 2 (busWrite s (highPage s.cpu.c) s.cpu.a))

end Sys2Proof.Machine
end

