-- ==== Sys2Proof/Machine/Rotate.lean ====
section
/-! DEFINITION. Rotate, shift, swap and bit instructions (45_rotate_shift_bit.md). -/

namespace Sys2Proof.Machine

/-- The accumulator rotates: `A <- v`, flags `(0, 0, 0, f.C)` (R255 to R258). -/
def accRotate (r : AluOut 8) (s : State) : State :=
  (s.setReg .a r.value).setFlags (some false) (some false) (some false) (some r.flags.c)

/-- The flags `(f.Z, 0, 0, f.C)` of the prefixed rotates and shifts (R259 to R274). -/
def shiftFlags (f : Flags) (s : State) : State := s.setFlags (some f.z) (some false) (some false) (some f.c)

/-- A prefixed rotate or shift of a register (45_rotate_shift_bit.md, before R259). -/
def shiftReg (rs : Reg8) (r : AluOut 8) (s : State) : State := shiftFlags r.flags (s.setReg rs r.value)

/-- A prefixed rotate or shift of `(HL)`: the write is always performed (45_rotate_shift_bit.md, before R259). -/
def shiftHl (r : AluOut 8) (s : State) : State := shiftFlags r.flags (s.setAtHl r.value)

/-- The flags `(f.Z, 0, 1, -)` of BIT (R275). -/
def bitFlags (f : Flags) (s : State) : State := s.setFlags (some f.z) (some false) (some true) none

/-- `RLCA` (R255). -/
def execRlca (s : State) : Result :=
  .next (commit 1 1 (accRotate (aluRotate .left s.cpu.a) s))

/-- `RRCA` (R256). -/
def execRrca (s : State) : Result :=
  .next (commit 1 1 (accRotate (aluRotate .right s.cpu.a) s))

/-- `RLA` (R257). -/
def execRla (s : State) : Result :=
  .next (commit 1 1 (accRotate (aluRotateCarry .left s.cpu.a s.fC) s))

/-- `RRA` (R258). -/
def execRra (s : State) : Result :=
  .next (commit 1 1 (accRotate (aluRotateCarry .right s.cpu.a s.fC) s))

/-- `RLC r` (R259). -/
def execRlcR (rs : Reg8) (s : State) : Result :=
  .next (commit 2 2 (shiftReg rs (aluRotate .left (s.reg rs)) s))

/-- `RLC (HL)` (R260). -/
def execRlcHl (s : State) : Result :=
  .next (commit 2 4 (shiftHl (aluRotate .left s.atHl) s))

/-- `RRC r` (R261). -/
def execRrcR (rs : Reg8) (s : State) : Result :=
  .next (commit 2 2 (shiftReg rs (aluRotate .right (s.reg rs)) s))

/-- `RRC (HL)` (R262). -/
def execRrcHl (s : State) : Result :=
  .next (commit 2 4 (shiftHl (aluRotate .right s.atHl) s))

/-- `RL r` (R263). -/
def execRlR (rs : Reg8) (s : State) : Result :=
  .next (commit 2 2 (shiftReg rs (aluRotateCarry .left (s.reg rs) s.fC) s))

/-- `RL (HL)` (R264). -/
def execRlHl (s : State) : Result :=
  .next (commit 2 4 (shiftHl (aluRotateCarry .left s.atHl s.fC) s))

/-- `RR r` (R265). -/
def execRrR (rs : Reg8) (s : State) : Result :=
  .next (commit 2 2 (shiftReg rs (aluRotateCarry .right (s.reg rs) s.fC) s))

/-- `RR (HL)` (R266). -/
def execRrHl (s : State) : Result :=
  .next (commit 2 4 (shiftHl (aluRotateCarry .right s.atHl s.fC) s))

/-- `SLA r` (R267). -/
def execSlaR (rs : Reg8) (s : State) : Result :=
  .next (commit 2 2 (shiftReg rs (aluShiftLeft (s.reg rs)) s))

/-- `SLA (HL)` (R268). -/
def execSlaHl (s : State) : Result :=
  .next (commit 2 4 (shiftHl (aluShiftLeft s.atHl) s))

/-- `SRA r` (R269). -/
def execSraR (rs : Reg8) (s : State) : Result :=
  .next (commit 2 2 (shiftReg rs (aluShiftRightArithmetic (s.reg rs)) s))

/-- `SRA (HL)` (R270). -/
def execSraHl (s : State) : Result :=
  .next (commit 2 4 (shiftHl (aluShiftRightArithmetic s.atHl) s))

/-- `SWAP r` (R271). -/
def execSwapR (rs : Reg8) (s : State) : Result :=
  .next (commit 2 2 (shiftReg rs (aluSwap (s.reg rs)) s))

/-- `SWAP (HL)` (R272). -/
def execSwapHl (s : State) : Result :=
  .next (commit 2 4 (shiftHl (aluSwap s.atHl) s))

/-- `SRL r` (R273). -/
def execSrlR (rs : Reg8) (s : State) : Result :=
  .next (commit 2 2 (shiftReg rs (aluShiftRightLogical (s.reg rs)) s))

/-- `SRL (HL)` (R274). -/
def execSrlHl (s : State) : Result :=
  .next (commit 2 4 (shiftHl (aluShiftRightLogical s.atHl) s))

/-- `BIT b,r` (R275). -/
def execBitBR (b : Fin 8) (rs : Reg8) (s : State) : Result :=
  .next (commit 2 2 (bitFlags (aluTestBit (s.reg rs) b) s))

/-- `BIT b,(HL)` (R276). -/
def execBitBHl (b : Fin 8) (s : State) : Result :=
  .next (commit 2 3 (bitFlags (aluTestBit s.atHl b) s))

/-- `RES b,r` (R277). -/
def execResBR (b : Fin 8) (rs : Reg8) (s : State) : Result :=
  .next (commit 2 2 (s.setReg rs (withBit (s.reg rs) b.val false)))

/-- `RES b,(HL)` (R278). -/
def execResBHl (b : Fin 8) (s : State) : Result :=
  .next (commit 2 4 (s.setAtHl (withBit s.atHl b.val false)))

/-- `SET b,r` (R279). -/
def execSetBR (b : Fin 8) (rs : Reg8) (s : State) : Result :=
  .next (commit 2 2 (s.setReg rs (withBit (s.reg rs) b.val true)))

/-- `SET b,(HL)` (R280). -/
def execSetBHl (b : Fin 8) (s : State) : Result :=
  .next (commit 2 4 (s.setAtHl (withBit s.atHl b.val true)))

end Sys2Proof.Machine
end

