-- ==== Sys2Proof/Machine/Prefixed.lean ====
section
/-! DEFINITION. The prefix marker (47_system.md R306): the byte after it selects the prefixed table's instruction. -/

namespace Sys2Proof.Machine

/-- The prefixed rotates and shifts on a register, by field y (30_encoding.md R122). -/
def execShiftReg (y : Fin 8) (rs : Reg8) (s : State) : Result :=
  match y with
  | 0 => execRlcR rs s
  | 1 => execRrcR rs s
  | 2 => execRlR rs s
  | 3 => execRrR rs s
  | 4 => execSlaR rs s
  | 5 => execSraR rs s
  | 6 => execSwapR rs s
  | 7 => execSrlR rs s

/-- The prefixed rotates and shifts on `(HL)`, by field y (30_encoding.md R122). -/
def execShiftHl (y : Fin 8) (s : State) : Result :=
  match y with
  | 0 => execRlcHl s
  | 1 => execRrcHl s
  | 2 => execRlHl s
  | 3 => execRrHl s
  | 4 => execSlaHl s
  | 5 => execSraHl s
  | 6 => execSwapHl s
  | 7 => execSrlHl s

/-- The prefixed table's entry for a byte, executed (30_encoding.md R122, R126). -/
def execPrefixedByte (b : Byte) (s : State) : Result :=
  match fieldX b, reg8OfField (fieldZ b) with
  | 0, some rs => execShiftReg (fieldY b) rs s
  | 0, none => execShiftHl (fieldY b) s
  | 1, some rs => execBitBR (fieldY b) rs s
  | 1, none => execBitBHl (fieldY b) s
  | 2, some rs => execResBR (fieldY b) rs s
  | 2, none => execResBHl (fieldY b) s
  | 3, some rs => execSetBR (fieldY b) rs s
  | 3, none => execSetBHl (fieldY b) s

/-- `PREFIX`: fetch the following byte at `(PC + 1) mod 0x10000` and use the prefixed opcode table; the pair is one
instruction, whose length and cost are those of the prefixed entry (R306; log 6). -/
def execPfx (s : State) : Result := execPrefixedByte (busRead s (s.cpu.pc + 1#16)) s

end Sys2Proof.Machine
end

