-- ==== Sys2Proof/Machine/System.lean ====
section
/-! DEFINITION. System instructions (47_system.md), the prefix marker apart. -/

namespace Sys2Proof.Machine

/-- `NOP` (R300). -/
def execNop (s : State) : Result :=
  .next (commit 1 1 s)

/-- `HALT`: PC is committed, then the watermark is INF (R301). -/
def execHalt (s : State) : Result :=
  .next ((s.setPc (nextPc 1 s)).setNext none)

/-- `STOP`: raises Fatal(Stop), PC stays at the opcode (R302). -/
def execStop (s : State) : Result :=
  .next (raiseFatal .stop s)

/-- `DI` (R303). -/
def execDi (s : State) : Result :=
  .next (commit 1 1 (s.setIme false))

/-- `EI` (R304). -/
def execEi (s : State) : Result :=
  .next (commit 1 1 (s.setIme true))

/-- `ILLEGAL_D3` (R305). -/
def execIllegalD3 (s : State) : Result :=
  .next (raiseFatal (.illegalOpcode 0xD3#8) s)

/-- `ILLEGAL_DB` (R305). -/
def execIllegalDB (s : State) : Result :=
  .next (raiseFatal (.illegalOpcode 0xDB#8) s)

/-- `ILLEGAL_DD` (R305). -/
def execIllegalDD (s : State) : Result :=
  .next (raiseFatal (.illegalOpcode 0xDD#8) s)

/-- `ILLEGAL_E3` (R305). -/
def execIllegalE3 (s : State) : Result :=
  .next (raiseFatal (.illegalOpcode 0xE3#8) s)

/-- `ILLEGAL_E4` (R305). -/
def execIllegalE4 (s : State) : Result :=
  .next (raiseFatal (.illegalOpcode 0xE4#8) s)

/-- `ILLEGAL_EB` (R305). -/
def execIllegalEB (s : State) : Result :=
  .next (raiseFatal (.illegalOpcode 0xEB#8) s)

/-- `ILLEGAL_EC` (R305). -/
def execIllegalEC (s : State) : Result :=
  .next (raiseFatal (.illegalOpcode 0xEC#8) s)

/-- `ILLEGAL_ED` (R305). -/
def execIllegalED (s : State) : Result :=
  .next (raiseFatal (.illegalOpcode 0xED#8) s)

/-- `ILLEGAL_F4` (R305). -/
def execIllegalF4 (s : State) : Result :=
  .next (raiseFatal (.illegalOpcode 0xF4#8) s)

/-- `ILLEGAL_FC` (R305). -/
def execIllegalFC (s : State) : Result :=
  .next (raiseFatal (.illegalOpcode 0xFC#8) s)

/-- `ILLEGAL_FD` (R305). -/
def execIllegalFD (s : State) : Result :=
  .next (raiseFatal (.illegalOpcode 0xFD#8) s)

end Sys2Proof.Machine
end

