-- ==== Sys2Proof/Machine/Dispatch.lean ====
section
/-! DEFINITION. The dispatch: one arm per constructor of `Instr`, each one call of its meaning. -/

namespace Sys2Proof.Machine

def exec (i : Instr) (s : State) : Host.Outcome State Fault Refusal :=
  match i with
  | .ldRR rd rs => Sys2Proof.Machine.execLdRR rd rs s
  | .ldRN8 rd n => Sys2Proof.Machine.execLdRN8 rd n s
  | .ldRHl rd => Sys2Proof.Machine.execLdRHl rd s
  | .ldHlR rs => Sys2Proof.Machine.execLdHlR rs s
  | .ldHlN8 n => Sys2Proof.Machine.execLdHlN8 n s
  | .ldABc => Sys2Proof.Machine.execLdABc s
  | .ldADe => Sys2Proof.Machine.execLdADe s
  | .ldBcA => Sys2Proof.Machine.execLdBcA s
  | .ldDeA => Sys2Proof.Machine.execLdDeA s
  | .ldAHlInc => Sys2Proof.Machine.execLdAHlInc s
  | .ldAHlDec => Sys2Proof.Machine.execLdAHlDec s
  | .ldHlIncA => Sys2Proof.Machine.execLdHlIncA s
  | .ldHlDecA => Sys2Proof.Machine.execLdHlDecA s
  | .ldAN16 n => Sys2Proof.Machine.execLdAN16 n s
  | .ldN16A n => Sys2Proof.Machine.execLdN16A n s
  | .ldhAN8 n => Sys2Proof.Machine.execLdhAN8 n s
  | .ldhN8A n => Sys2Proof.Machine.execLdhN8A n s
  | .ldAC => Sys2Proof.Machine.execLdAC s
  | .ldCA => Sys2Proof.Machine.execLdCA s
  | .ldRrN16 p n => Sys2Proof.Machine.execLdRrN16 p n s
  | .ldN16Sp n => Sys2Proof.Machine.execLdN16Sp n s
  | .ldSpHl => Sys2Proof.Machine.execLdSpHl s
  | .ldHlSpE8 e => Sys2Proof.Machine.execLdHlSpE8 e s
  | .pushRr p => Sys2Proof.Machine.execPushRr p s
  | .popRr p => Sys2Proof.Machine.execPopRr p s
  | .addAR rs => Sys2Proof.Machine.execAddAR rs s
  | .addAHl => Sys2Proof.Machine.execAddAHl s
  | .addAN8 n => Sys2Proof.Machine.execAddAN8 n s
  | .adcAR rs => Sys2Proof.Machine.execAdcAR rs s
  | .adcAHl => Sys2Proof.Machine.execAdcAHl s
  | .adcAN8 n => Sys2Proof.Machine.execAdcAN8 n s
  | .subAR rs => Sys2Proof.Machine.execSubAR rs s
  | .subAHl => Sys2Proof.Machine.execSubAHl s
  | .subAN8 n => Sys2Proof.Machine.execSubAN8 n s
  | .sbcAR rs => Sys2Proof.Machine.execSbcAR rs s
  | .sbcAHl => Sys2Proof.Machine.execSbcAHl s
  | .sbcAN8 n => Sys2Proof.Machine.execSbcAN8 n s
  | .andAR rs => Sys2Proof.Machine.execAndAR rs s
  | .andAHl => Sys2Proof.Machine.execAndAHl s
  | .andAN8 n => Sys2Proof.Machine.execAndAN8 n s
  | .xorAR rs => Sys2Proof.Machine.execXorAR rs s
  | .xorAHl => Sys2Proof.Machine.execXorAHl s
  | .xorAN8 n => Sys2Proof.Machine.execXorAN8 n s
  | .orAR rs => Sys2Proof.Machine.execOrAR rs s
  | .orAHl => Sys2Proof.Machine.execOrAHl s
  | .orAN8 n => Sys2Proof.Machine.execOrAN8 n s
  | .cpAR rs => Sys2Proof.Machine.execCpAR rs s
  | .cpAHl => Sys2Proof.Machine.execCpAHl s
  | .cpAN8 n => Sys2Proof.Machine.execCpAN8 n s
  | .incR rd => Sys2Proof.Machine.execIncR rd s
  | .incHl => Sys2Proof.Machine.execIncHl s
  | .decR rd => Sys2Proof.Machine.execDecR rd s
  | .decHl => Sys2Proof.Machine.execDecHl s
  | .daa => Sys2Proof.Machine.execDaa s
  | .cpl => Sys2Proof.Machine.execCpl s
  | .scf => Sys2Proof.Machine.execScf s
  | .ccf => Sys2Proof.Machine.execCcf s
  | .addHlRr p => Sys2Proof.Machine.execAddHlRr p s
  | .addSpE8 e => Sys2Proof.Machine.execAddSpE8 e s
  | .incRr p => Sys2Proof.Machine.execIncRr p s
  | .decRr p => Sys2Proof.Machine.execDecRr p s
  | .rlca => Sys2Proof.Machine.execRlca s
  | .rrca => Sys2Proof.Machine.execRrca s
  | .rla => Sys2Proof.Machine.execRla s
  | .rra => Sys2Proof.Machine.execRra s
  | .rlcR rs => Sys2Proof.Machine.execRlcR rs s
  | .rlcHl => Sys2Proof.Machine.execRlcHl s
  | .rrcR rs => Sys2Proof.Machine.execRrcR rs s
  | .rrcHl => Sys2Proof.Machine.execRrcHl s
  | .rlR rs => Sys2Proof.Machine.execRlR rs s
  | .rlHl => Sys2Proof.Machine.execRlHl s
  | .rrR rs => Sys2Proof.Machine.execRrR rs s
  | .rrHl => Sys2Proof.Machine.execRrHl s
  | .slaR rs => Sys2Proof.Machine.execSlaR rs s
  | .slaHl => Sys2Proof.Machine.execSlaHl s
  | .sraR rs => Sys2Proof.Machine.execSraR rs s
  | .sraHl => Sys2Proof.Machine.execSraHl s
  | .swapR rs => Sys2Proof.Machine.execSwapR rs s
  | .swapHl => Sys2Proof.Machine.execSwapHl s
  | .srlR rs => Sys2Proof.Machine.execSrlR rs s
  | .srlHl => Sys2Proof.Machine.execSrlHl s
  | .bitBR b rs => Sys2Proof.Machine.execBitBR b rs s
  | .bitBHl b => Sys2Proof.Machine.execBitBHl b s
  | .resBR b rs => Sys2Proof.Machine.execResBR b rs s
  | .resBHl b => Sys2Proof.Machine.execResBHl b s
  | .setBR b rs => Sys2Proof.Machine.execSetBR b rs s
  | .setBHl b => Sys2Proof.Machine.execSetBHl b s
  | .jpN16 n => Sys2Proof.Machine.execJpN16 n s
  | .jpCcN16 cc n => Sys2Proof.Machine.execJpCcN16 cc n s
  | .jpHl => Sys2Proof.Machine.execJpHl s
  | .jrE8 e => Sys2Proof.Machine.execJrE8 e s
  | .jrCcE8 cc e => Sys2Proof.Machine.execJrCcE8 cc e s
  | .callN16 n => Sys2Proof.Machine.execCallN16 n s
  | .callCcN16 cc n => Sys2Proof.Machine.execCallCcN16 cc n s
  | .ret => Sys2Proof.Machine.execRet s
  | .retCc cc => Sys2Proof.Machine.execRetCc cc s
  | .rstT t => Sys2Proof.Machine.execRstT t s
  | .reti => Sys2Proof.Machine.execReti s
  | .nop => Sys2Proof.Machine.execNop s
  | .halt => Sys2Proof.Machine.execHalt s
  | .stop => Sys2Proof.Machine.execStop s
  | .di => Sys2Proof.Machine.execDi s
  | .ei => Sys2Proof.Machine.execEi s
  | .illegalD3 => Sys2Proof.Machine.execIllegalD3 s
  | .illegalDB => Sys2Proof.Machine.execIllegalDB s
  | .illegalDD => Sys2Proof.Machine.execIllegalDD s
  | .illegalE3 => Sys2Proof.Machine.execIllegalE3 s
  | .illegalE4 => Sys2Proof.Machine.execIllegalE4 s
  | .illegalEB => Sys2Proof.Machine.execIllegalEB s
  | .illegalEC => Sys2Proof.Machine.execIllegalEC s
  | .illegalED => Sys2Proof.Machine.execIllegalED s
  | .illegalF4 => Sys2Proof.Machine.execIllegalF4 s
  | .illegalFC => Sys2Proof.Machine.execIllegalFC s
  | .illegalFD => Sys2Proof.Machine.execIllegalFD s
  | .pfx => Sys2Proof.Machine.execPfx s

end Sys2Proof.Machine
end

