-- ==== Sys2Proof/Machine/Compositor.lean ====
section
/-! DEFINITION. Compositing one scanline, pixel by pixel (49_display.md section 4). It reads VRAM and OAM directly, not
through the bus (R371). -/

namespace Sys2Proof.Machine

/-- A pixel of an intermediate line: a colour index and whether it is opaque (49_display.md R370). -/
structure Px where
  colour : Pixel
  solid : Bool
  deriving DecidableEq, Repr

/-- The transparent pixel of colour 0. -/
def Px.clear : Px := { colour := 0#2, solid := false }

/-- `pal(p, raw) = (p >> (2 * raw)) & 3` (49_display.md R378). -/
def pal (p : Byte) (raw : Pixel) : Pixel := (p >>> (2 * raw.toNat)).setWidth 2

/-- Pixel `j` of a tile row from its two plane bytes, bit 7 leftmost (49_display.md R372). -/
def planeColour (lsb msb : Byte) (j : Nat) : Pixel :=
  BitVec.ofNat 2 (2 * (msb.getLsbD (7 - j)).toNat + (lsb.getLsbD (7 - j)).toNat)

/-- `tileRow(addr, r)[j]` (49_display.md R372). -/
def tileRow (m : Memory) (addr r j : Nat) : Pixel := planeColour (m.read (addr + 2 * r)) (m.read (addr + 2 * r + 1)) j

/-- `tileAddr(T)` for background and window (49_display.md R373). -/
def tileAddr (lcdc t : Byte) : Nat :=
  if lcdc.getLsbD 4 then 0x8000 + 16 * t.toNat
  else if t.toNat < 0x80 then 0x9000 + 16 * t.toNat
  else 0x8800 + 16 * (t.toNat - 0x80)

/-- The tile map base a select bit chooses (49_display.md R374, 10_state.md R41). -/
def mapBase (select : Bool) : Nat := if select then 0x9C00 else 0x9800

/-- The address of the tile that column group `k` (0..31) of map row `y` shows (49_display.md R374). -/
def mapTile (m : Memory) (lcdc : Byte) (base y k : Nat) : Nat := tileAddr lcdc (m.read (base + 32 * (y / 8) + k))

/-- `mapRow(base, y)[u]` (49_display.md R374). -/
def mapRow (m : Memory) (lcdc : Byte) (base y u : Nat) : Pixel :=
  tileRow m (mapTile m lcdc base y (u / 8)) (y % 8) (u % 8)

/-- `Lcd.bgLine(ly)[x]` (49_display.md R375). -/
def bgPixel (r : Lcd) (m : Memory) (ly x : Nat) : Px :=
  if r.lcdc.getLsbD 0 then
    let raw := mapRow m r.lcdc (mapBase (r.lcdc.getLsbD 3)) ((ly + r.scy.toNat) % 256) ((x + r.scx.toNat) % 256)
    { colour := pal r.bgp raw, solid := raw != 0#2 }
  else Px.clear

/-- Whether the window is drawn on line `ly`: enabled, `0 <= WX - 7 < 160`, `ly >= WY` (49_display.md R376). -/
def windowDrawn (r : Lcd) (ly : Nat) : Bool :=
  r.lcdc.getLsbD 5 && decide (7 ≤ r.wx.toNat ∧ r.wx.toNat < 167) && decide (r.wy.toNat ≤ ly)

/-- `Lcd.withWindow(bg, ly)[x]` (49_display.md R376, R377). -/
def bgWindowPixel (r : Lcd) (m : Memory) (ly x : Nat) : Px :=
  if windowDrawn r ly && decide (r.wx.toNat ≤ x + 7) then
    let raw := mapRow m r.lcdc (mapBase (r.lcdc.getLsbD 6)) r.winLine (x + 7 - r.wx.toNat)
    { colour := pal r.bgp raw, solid := raw != 0#2 }
  else bgPixel r m ly x

/-- One OAM entry (49_display.md R380). -/
structure Sprite where
  y : Byte
  x : Byte
  tile : Byte
  attr : Byte
  deriving DecidableEq, Repr

/-- Entry `k` of OAM, k = 0..39 (49_display.md R380). -/
def spriteAt (m : Memory) (k : Nat) : Sprite :=
  { y := m.read (0xFE00 + 4 * k), x := m.read (0xFE01 + 4 * k), tile := m.read (0xFE02 + 4 * k),
    attr := m.read (0xFE03 + 4 * k) }

/-- The sprite height, 8 or 16 (49_display.md R379, 10_state.md R41). -/
def spriteHeight (lcdc : Byte) : Nat := if lcdc.getLsbD 2 then 16 else 8

/-- Whether a sprite's rows `Y - 16 ..` meet the line (49_display.md R379). -/
def spriteOnLine (h ly : Nat) (sp : Sprite) : Bool := decide (sp.y.toNat ≤ ly + 16 ∧ ly + 16 < sp.y.toNat + h)

/-- `Lcd.selectSprites(ly)`: the first 10 in index order; none when the layer is off (49_display.md R379). -/
def selectSprites (r : Lcd) (m : Memory) (ly : Nat) : List Sprite :=
  if r.lcdc.getLsbD 1 then
    (((List.range 40).map (spriteAt m)).filter (spriteOnLine (spriteHeight r.lcdc) ly)).take 10
  else []

/-- Insert a sprite before the first whose X is at least its own: it comes from a lower index than all of them. -/
def insertSprite (sp : Sprite) : List Sprite → List Sprite
  | [] => [sp]
  | q :: rest => if sp.x.toNat ≤ q.x.toNat then sp :: q :: rest else q :: insertSprite sp rest

/-- Sort ascending by the pair (X, index), for a list that comes in index order (49_display.md R381). -/
def sortSprites : List Sprite → List Sprite
  | [] => []
  | sp :: rest => insertSprite sp (sortSprites rest)

/-- The row of its tile data a sprite shows on a line, after FLIP_V (49_display.md R382). -/
def spriteRow (h ly : Nat) (sp : Sprite) : Nat :=
  if sp.attr.getLsbD 6 then h - 1 - (ly + 16 - sp.y.toNat) else ly + 16 - sp.y.toNat

/-- The address of a sprite's tile data; bit 0 of the index is ignored at height 16 (49_display.md R382). -/
def spriteTileAddr (h : Nat) (sp : Sprite) : Nat :=
  0x8000 + 16 * (if h = 8 then sp.tile else sp.tile &&& 0xFE#8).toNat

/-- `spritePixel(k, ly, x)` (49_display.md R382). -/
def spritePixel (r : Lcd) (m : Memory) (sp : Sprite) (ly x : Nat) : Px :=
  if sp.x.toNat ≤ x + 8 ∧ x + 8 - sp.x.toNat ≤ 7 then
    let h := spriteHeight r.lcdc
    let j := if sp.attr.getLsbD 5 then 7 - (x + 8 - sp.x.toNat) else x + 8 - sp.x.toNat
    let raw := tileRow m (spriteTileAddr h sp) (spriteRow h ly sp) j
    { colour := pal (if sp.attr.getLsbD 4 then r.obp1 else r.obp0) raw, solid := raw != 0#2 }
  else Px.clear

/-- One pixel of one pass: the opaque pixel of the first sprite that has one, the list in priority order
(49_display.md R383). -/
def passPixel (r : Lcd) (m : Memory) (ly x : Nat) : List Sprite → Px
  | [] => Px.clear
  | sp :: rest =>
    if (spritePixel r m sp ly x).solid then spritePixel r m sp ly x else passPixel r m ly x rest

/-- The sprites of a pass, `behind` by bit 7 of the attributes (49_display.md R383). -/
def passSprites (behind : Bool) (sprites : List Sprite) : List Sprite :=
  sprites.filter (fun sp => sp.attr.getLsbD 7 == behind)

/-- `Lcd.merge` at one column (49_display.md R384). -/
def mergePixel (bgw behind front : Px) : Pixel :=
  if front.solid then front.colour
  else if behind.solid && !bgw.solid then behind.colour
  else bgw.colour

/-- Pixel `x` of the composited line, `sprites` the selected ones in priority order (49_display.md R370). -/
def linePixel (r : Lcd) (m : Memory) (ly : Nat) (sprites : List Sprite) (x : Nat) : Pixel :=
  mergePixel (bgWindowPixel r m ly x) (passPixel r m ly x (passSprites true sprites))
    (passPixel r m ly x (passSprites false sprites))

/-- The line `Lcd.composeLine(ly)` yields (49_display.md R370). -/
def composeLine (r : Lcd) (m : Memory) (ly : Nat) : List Pixel :=
  (List.range Config.lcdWidth).map (linePixel r m ly (sortSprites (selectSprites r m ly)))

/-- `Lcd.win_line` after compositing line `ly`: it advances where the window is drawn (49_display.md R376, R386). -/
def winLineAfter (r : Lcd) (ly : Nat) : Nat := if windowDrawn r ly then r.winLine + 1 else r.winLine

end Sys2Proof.Machine
end

