-- ==== Sys2Proof/Machine/Display.lean ====
section
/-! DEFINITION. The Display Controller's per-cycle hook: power-up, the sprite DMA engine, the mode sequencer, publishing
(49_display.md section 3). -/

namespace Sys2Proof.Machine

/-- `Lcd.powerUp(c)` (49_display.md R365). -/
def lcdPowerUp (s : State) : State := { s with lcd := { s.lcd with onCycle := s.now, next := some s.now } }

/-- The power-up test, first part of the hook (49_display.md R360). -/
def lcdPowerTest (s : State) : State := if s.lcd.next = none ∧ s.lcd.lcdc.getLsbD 7 = true then lcdPowerUp s else s

/-- `Lcd.dmaStep()`: one byte from the bus straight into OAM (49_display.md R363, 20_memory.md R95). -/
def dmaStep (s : State) : State :=
  if s.lcd.dmaIdx < Config.dmaLength then
    let v := busRead s (joinBytes s.lcd.dmaSrc (BitVec.ofNat 8 s.lcd.dmaIdx))
    { s with
      mem := s.mem.write (0xFE00 + s.lcd.dmaIdx) v
      lcd := { s.lcd with dmaIdx := s.lcd.dmaIdx + 1 } }
  else s

/-- `rel`, frame-relative time: a non-negative remainder (49_display.md R343, 00_scope.md R11). -/
def frameTime (s : State) : Nat := (((s.now : Int) - s.lcd.onCycle) % (Config.frameCycles : Int)).toNat

/-- `Lcd.publish(b)`: an empty slot is a line of colour 0 (49_display.md R366). -/
def publish (b : List (Option (List Pixel))) : List (List Pixel) := b.map (fun slot => slot.getD blankLine)

/-- Set `Lcd.next` to the current tick plus `n`. -/
def lcdWait (n : Nat) (s : State) : State := { s with lcd := { s.lcd with next := some (s.now + n) } }

/-- A fresh frame builder and window counter, at line 0 (49_display.md R361). -/
def lcdNewFrame (s : State) : State :=
  { s with lcd := { s.lcd with frameNext := List.replicate Config.lcdHeight none, winLine := 0 } }

/-- `Lcd.frame_next[line] <- Lcd.composeLine(line)`, with the window counter's advance (49_display.md R361, R376). -/
def lcdComposeInto (line : Nat) (s : State) : State :=
  { s with
    lcd :=
      { s.lcd with
        frameNext := s.lcd.frameNext.set line (some (composeLine s.lcd s.mem line))
        winLine := winLineAfter s.lcd line } }

/-- Start of a visible line: mode 2 (49_display.md R361). -/
def lcdLineStart (line : Nat) (s : State) : State :=
  let s1 := if line = 0 then lcdNewFrame s else s
  lcdWait Config.mode2Cycles (lcdSetMode 2#2 (lcdSetLy (BitVec.ofNat 8 line) s1))

/-- Start of pixel transfer: mode 3 (49_display.md R361). -/
def lcdTransferStart (line : Nat) (s : State) : State :=
  lcdWait Config.mode3Cycles (lcdComposeInto line (lcdSetMode 3#2 s))

/-- Start of horizontal blank: mode 0 (49_display.md R361). -/
def lcdHblankStart (s : State) : State := lcdWait Config.mode0Cycles (lcdSetMode 0#2 s)

/-- Entry to line 144: mode 1, the frame published, the vblank request (49_display.md R361). -/
def lcdVblankEntry (s : State) : State :=
  let s1 := lcdSetMode 1#2 s
  requestInterrupt 0 { s1 with lcd := { s1.lcd with frameCur := publish s1.lcd.frameNext } }

/-- Start of a vblank line (49_display.md R361). -/
def lcdVblankLine (line : Nat) (s : State) : State :=
  let s1 := lcdSetLy (BitVec.ofNat 8 line) s
  lcdWait Config.lineCycles (if line = 144 then lcdVblankEntry s1 else s1)

/-- `Lcd.step(c)`, the mode sequencer (49_display.md R361). -/
def lcdStep (s : State) : State :=
  let line := frameTime s / Config.lineCycles
  let pos := frameTime s % Config.lineCycles
  if line < Config.lcdHeight then
    if pos = 0 then lcdLineStart line s
    else if pos = 20 then lcdTransferStart line s
    else lcdHblankStart s
  else lcdVblankLine line s

/-- The sequencer acts only at its watermark (49_display.md R360). -/
def lcdSequence (s : State) : State := if s.lcd.next = some s.now then lcdStep s else s

/-- `Lcd.tick(c)` (49_display.md R360). -/
def lcdTick (s : State) : State := lcdSequence (dmaStep (lcdPowerTest s))

/-! ## The host's view (49_display.md R366) -/

/-- `current_image()`. -/
def currentImage (s : State) : List (List Pixel) := s.lcd.frameCur

/-- `get(x, y)`: pixel x of line y, `none` outside the image. -/
def imageGet (image : List (List Pixel)) (x y : Nat) : Option Pixel := (image.drop y).head?.bind (fun row => (row.drop x).head?)

end Sys2Proof.Machine
end

