-- ==== Sys2Proof/Machine/Tick.lean ====
section
/-! DEFINITION. One tick of the machine: the host's events, the Timer, the Display Controller, the CPU, and the advance of
`now` (70_reset_and_hazards.md R470, 60_exceptions.md R427 to R429). -/

namespace Sys2Proof.Machine

/-- Deliver the host events of the current cycle, before anything else of the tick (60_exceptions.md R427). -/
def deliverHostEvents (s : State) : State :=
  s.hostEvents.foldl (fun t e => if e.1 = s.now then requestInterrupt e.2.val t else t) s

/-- What precedes the CPU in a tick: host events, Timer, Display Controller (70_reset_and_hazards.md R470). -/
def deviceTicks (s : State) : State := lcdTick (timerTick (deliverHostEvents s))

/-- The HALT wake test (60_exceptions.md R428). -/
def wakeTest (s : State) : State :=
  if s.cpu.next = none ∧ pendingBits s ≠ 0#8 then s.setNext (some s.now) else s

/-- The interrupt to service at a non-idle tick, if any: the lowest pending bit, when IME = 1 (60_exceptions.md R429). -/
def serviceable (s : State) : Option Nat := if s.cpu.ime then lowestSetBit (pendingBits s) else none

/-- The CPU at a tick at which it is not idle: one service, or one whole instruction (60_exceptions.md R429). -/
def cpuActive (s : State) : Result :=
  match serviceable s with
  | some i => .next (takeInterrupt i s)
  | none => exec (fetch s) s

/-- `Cpu.tick(c)` (60_exceptions.md R429). -/
def cpuTick (s : State) : Result :=
  if (wakeTest s).cpu.next = some s.now then cpuActive (wakeTest s) else .next (wakeTest s)

/-- `now <- now + 1`; on Fatal `now` stays (70_reset_and_hazards.md R470, 60_exceptions.md R440). -/
def advanceNow (s : State) : State := if s.fatal = none then { s with now := s.now + 1 } else s

/-- Apply a function to the next state of an answer. -/
def onNext (f : State → State) : Result → Result
  | .next s => .next (f s)
  | .fault r => .fault r
  | .refused r => .refused r

/-- `tick(now); now <- now + 1` (70_reset_and_hazards.md R470). -/
def tick (s : State) : Result := onNext advanceNow (cpuTick (deviceTicks s))

/-! ## Setting up one instruction from outside -/

/-- Whether plain storage answers a read of an address: that of the core, or with the default platform any. -/
def storageAnswers (p : List PlatformComponent) (a : Word) : Bool :=
  (storageCell a).isSome && (coreDecodes a || p == defaultPlatform)

/-- Where an instruction can be placed to be fetched next: three bytes in a row that plain storage answers, none of them in OAM,
which the DMA engine may write in the same tick. -/
def canHoldCode (p : List PlatformComponent) (a : Word) : Bool :=
  storageAnswers p a && storageAnswers p (a + 1#16) && storageAnswers p (a + 2#16) && !inWindow 0xFDFE 0xFE9F a

/-- A PC that can hold code: the one given if it can, else 0x0000 in the cartridge image of the default platform, or the start
of HRAM with another platform. -/
def codePc (p : List PlatformComponent) (pc : Word) : Word :=
  if canHoldCode p pc then pc else if p = defaultPlatform then 0#16 else 0xFF80#16

/-- The CPU at an instruction boundary at the current cycle, at a PC that can hold code. -/
def atBoundary (s : State) : State :=
  { s with
    fatal := none
    cpu := { s.cpu with pc := codePc s.platform s.cpu.pc, next := some s.now } }

/-- IME cleared where the coming tick would service an interrupt instead of fetching. -/
def withoutService (s : State) : State := if (serviceable (deviceTicks s)).isSome then s.setIme false else s

end Sys2Proof.Machine
end

