-- ==== Sys2Proof/Machine/Step.lean ====
section
/-! DEFINITION. One step, which is one tick of the whole machine (70_reset_and_hazards.md R470; log 1). -/

namespace Sys2Proof.Machine

/-- One tick. A state whose `fatal` is set has none: the machine has stopped for good (10_state.md R58, 60_exceptions.md
R440; log 2). -/
def step (s : State) : Host.Outcome State Fault Refusal :=
  match s.fatal with
  | some kind => .fault (.stopped kind)
  | none => tick s

/-- `s` with an instruction word stored where the next step fetches, so that the very next step runs it; it stands for the
load of a program from outside the machine (log 3, log 9). -/
def State.withFetchWord (s : State) (nbits w : Nat) : State :=
  let t := atBoundary s
  withoutService (placeBytes t.cpu.pc (tableBytes nbits w) t)

end Sys2Proof.Machine
end

