-- ==== Sys2Proof/Machine/Driver.lean ====
section
/-! DEFINITION. The host interface: the start of a run from its parameters, `run_until`, and an interrupt request between
ticks, with the two preconditions of 60_exceptions.md R441 as refusals. -/

namespace Sys2Proof.Machine

/-- The parameter launch_state (00_scope.md R8, 70_reset_and_hazards.md R462). -/
inductive LaunchState where
  | reset
  | postBoot
  deriving DecidableEq, Repr

/-- The start state that a launch state names. -/
def LaunchState.state : LaunchState → State
  | .reset => State.reset
  | .postBoot => State.postBoot

/-- The machine at the start of a run, from the three parameters left open and the cartridge image (00_scope.md R8, 20_memory.md
R90, 70_reset_and_hazards.md R475). -/
def State.start (launch : LaunchState) (platform : List PlatformComponent) (hostEvents : List (Nat × Fin 5))
    (image : List Byte) : State :=
  { launch.state.withCartridge image with platform := platform, hostEvents := hostEvents }

/-- `k` ticks, stopping early with the fatal state when a tick raises a Fatal (70_reset_and_hazards.md R470). -/
def runTicks : Nat → State → Result
  | 0, s => .next s
  | k + 1, s =>
    if s.fatal = none then
      match step s with
      | .next s' => runTicks k s'
      | .fault r => .fault r
      | .refused r => .refused r
    else .next s

/-- `run_until(t)`, refused when t is behind `now` (70_reset_and_hazards.md R470, 60_exceptions.md R441). -/
def runUntil (t : Nat) (s : State) : Result :=
  if t < s.now then .refused .runUntilBehindNow else runTicks (t - s.now) s

/-- A host's `RequestInterrupt(i)` between ticks, refused for an index above 4; a fatal state does not change
(60_exceptions.md R427, R440, R441). -/
def hostRequestInterrupt (i : Nat) (s : State) : Result :=
  if i > 4 then .refused .hostInterruptIndex
  else if s.fatal = none then .next (requestInterrupt i s) else .next s

end Sys2Proof.Machine
end

