-- ==== Sys2Proof/Machine/Planes.lean ====
section
/-! DEFINITION. The bit-plane containers with their contracts (49_display.md R388 to R394) and the compositor written in
them (R395). Bit i of a plane is screen column i. A contract violation is an answer of the container, not a fault of the
machine (R396; log 13). -/

namespace Sys2Proof.Machine

/-- The contract violations of the containers (49_display.md R388 to R394). -/
inductive PlaneViolation where
  /-- A size that is not a positive multiple of 32. -/
  | badSize (n : Nat)
  /-- A bit, byte, pixel or line index outside its range. -/
  | indexOutOfRange (i : Nat)
  /-- Two operands of different sizes. -/
  | sizeMismatch (n m : Nat)
  deriving DecidableEq, Repr

/-- What an operation with a contract answers. -/
abbrev Checked := Except PlaneViolation

/-- BitVector: bit i of the plane is element i (49_display.md R388). -/
structure Plane where
  bits : List Bool
  deriving DecidableEq, Repr

/-- Whether `n` may be the size of a plane: a positive multiple of 32 (49_display.md R388). -/
def validSize (n : Nat) : Bool := decide (0 < n ∧ n % 32 = 0)

/-- The plane of size n with the given bits, refused for an invalid size (49_display.md R388). -/
def Plane.ofFn (n : Nat) (f : Nat → Bool) : Checked Plane :=
  if validSize n then .ok ⟨(List.range n).map f⟩ else .error (.badSize n)

/-- All-zero (49_display.md R388). -/
def Plane.zeros (n : Nat) : Checked Plane := Plane.ofFn n (fun _ => false)

/-- All-one (49_display.md R388). -/
def Plane.ones (n : Nat) : Checked Plane := Plane.ofFn n (fun _ => true)

/-- `size()` (49_display.md R388). -/
def Plane.size (p : Plane) : Nat := p.bits.length

/-- `test_bit(i)` (49_display.md R388). -/
def Plane.testBit (p : Plane) (i : Nat) : Checked Bool :=
  match p.bits[i]? with
  | some x => .ok x
  | none => .error (.indexOutOfRange i)

/-- The bit at any integer position, 0 outside the plane (49_display.md R390). -/
def Plane.bitOrZero (p : Plane) (i : Int) : Bool :=
  if 0 ≤ i then (p.bits[i.toNat]?).getD false else false

/-- `not` (49_display.md R389). -/
def Plane.not (p : Plane) : Plane := ⟨p.bits.map (fun x => !x)⟩

/-- A bitwise operation of two planes of one size (49_display.md R389). -/
def Plane.zip (f : Bool → Bool → Bool) (p q : Plane) : Checked Plane :=
  if p.size = q.size then .ok ⟨List.zipWith f p.bits q.bits⟩ else .error (.sizeMismatch p.size q.size)

/-- `and` (49_display.md R389). -/
def Plane.and (p q : Plane) : Checked Plane := Plane.zip (fun x y => x && y) p q

/-- `or` (49_display.md R389). -/
def Plane.or (p q : Plane) : Checked Plane := Plane.zip (fun x y => x || y) p q

/-- `extract_zero_extended(start, size)` (49_display.md R390). -/
def Plane.extractZeroExtended (p : Plane) (start : Int) (size : Nat) : Checked Plane :=
  Plane.ofFn size (fun i => p.bitOrZero (start + i))

/-- `extract_wrapped(start, size)`, floor modulus (49_display.md R390). -/
def Plane.extractWrapped (p : Plane) (start : Int) (size : Nat) : Checked Plane :=
  Plane.ofFn size (fun i => p.bitOrZero ((start + i) % (p.size : Int)))

/-- `shift(d)` (49_display.md R390). -/
def Plane.shift (p : Plane) (d : Int) : Checked Plane := p.extractZeroExtended (-d) p.size

/-- BitVector builder: the bits so far (49_display.md R391). -/
structure PlaneBuilder where
  bits : List Bool
  deriving DecidableEq, Repr

/-- A builder of size n, all zero (49_display.md R391). -/
def PlaneBuilder.new (n : Nat) : Checked PlaneBuilder :=
  if validSize n then .ok ⟨List.replicate n false⟩ else .error (.badSize n)

/-- `set_byte(k, v)`: bits 8k..8k+7 become v[0]..v[7] (49_display.md R391). -/
def PlaneBuilder.setByte (w : PlaneBuilder) (k : Nat) (v : Byte) : Checked PlaneBuilder :=
  if k < w.bits.length / 8 then
    .ok ⟨w.bits.mapIdx (fun i x => if i / 8 = k then v.getLsbD (i % 8) else x)⟩
  else .error (.indexOutOfRange k)

/-- `build()` (49_display.md R391). -/
def PlaneBuilder.build (w : PlaneBuilder) : Plane := ⟨w.bits⟩

/-- ImageLine (49_display.md R392). -/
structure ImageLine where
  msb : Plane
  lsb : Plane
  opacity : Plane
  deriving DecidableEq, Repr

/-- A line from its three planes (49_display.md R392). -/
def ImageLine.ofPlanes (msb lsb opacity : Plane) : Checked ImageLine :=
  if msb.size ≠ lsb.size then .error (.sizeMismatch msb.size lsb.size)
  else if msb.size ≠ opacity.size then .error (.sizeMismatch msb.size opacity.size)
  else .ok ⟨msb, lsb, opacity⟩

/-- The number of pixels of a line. -/
def ImageLine.size (l : ImageLine) : Nat := l.opacity.size

/-- The empty line of size n (49_display.md R392). -/
def ImageLine.empty (n : Nat) : Checked ImageLine := do
  let z ← Plane.zeros n
  return ⟨z, z, z⟩

/-- Colour of pixel x, `2 * msb[x] + lsb[x]` (49_display.md R392). -/
def ImageLine.colour (l : ImageLine) (x : Nat) : Pixel :=
  BitVec.ofNat 2 (2 * (l.msb.bitOrZero x).toNat + (l.lsb.bitOrZero x).toNat)

/-- The colours of a line, from the left. -/
def ImageLine.colours (l : ImageLine) : List Pixel := (List.range l.size).map l.colour

/-- The line builder: a builder for each of the two colour planes (49_display.md R392). -/
structure LineBuilder where
  msb : PlaneBuilder
  lsb : PlaneBuilder
  deriving DecidableEq, Repr

/-- A line builder of size n. -/
def LineBuilder.new (n : Nat) : Checked LineBuilder := do
  let z ← PlaneBuilder.new n
  return ⟨z, z⟩

/-- Set the pair (msb byte, lsb byte) of byte position k (49_display.md R392). -/
def LineBuilder.setBytes (w : LineBuilder) (k : Nat) (m l : Byte) : Checked LineBuilder := do
  let m' ← w.msb.setByte k m
  let l' ← w.lsb.setByte k l
  return ⟨m', l'⟩

/-- Build: opaque exactly where the colour is not 0 (49_display.md R392). -/
def LineBuilder.build (w : LineBuilder) : Checked ImageLine := do
  let o ← w.msb.build.or w.lsb.build
  ImageLine.ofPlanes w.msb.build w.lsb.build o

/-- The line of size n with the given (msb byte, lsb byte) pairs from byte position k on. -/
def LineBuilder.setAll (w : LineBuilder) (k : Nat) : List (Byte × Byte) → Checked LineBuilder
  | [] => .ok w
  | (m, l) :: rest => do
    let w' ← w.setBytes k m l
    w'.setAll (k + 1) rest

/-- A built line of size n from its first bytes. -/
def ImageLine.ofBytes (n : Nat) (bytes : List (Byte × Byte)) : Checked ImageLine := do
  let w ← LineBuilder.new n
  let w' ← w.setAll 0 bytes
  w'.build

/-- `shift(d)` (49_display.md R393). -/
def ImageLine.shift (l : ImageLine) (d : Int) : Checked ImageLine := do
  let m ← l.msb.shift d
  let b ← l.lsb.shift d
  let o ← l.opacity.shift d
  return ⟨m, b, o⟩

/-- `extract_wrapped(start, size)` (49_display.md R393). -/
def ImageLine.extractWrapped (l : ImageLine) (start : Int) (size : Nat) : Checked ImageLine := do
  let m ← l.msb.extractWrapped start size
  let b ← l.lsb.extractWrapped start size
  let o ← l.opacity.extractWrapped start size
  return ⟨m, b, o⟩

/-- `map_colors(p)` (49_display.md R393). -/
def ImageLine.mapColors (l : ImageLine) (p : Byte) : ImageLine :=
  { l with
    msb := ⟨(List.range l.size).map (fun x => (pal p (l.colour x)).getLsbD 1)⟩
    lsb := ⟨(List.range l.size).map (fun x => (pal p (l.colour x)).getLsbD 0)⟩ }

/-- One plane of `below`: the top's bit where the mask is 1, the line's own where it is 0 (49_display.md R393). -/
def Plane.select (mask top self : Plane) : Checked Plane := do
  let t ← top.and mask
  let u ← self.and mask.not
  t.or u

/-- `below(top, mask)` (49_display.md R393). -/
def ImageLine.belowMask (self top : ImageLine) (mask : Plane) : Checked ImageLine := do
  let m ← Plane.select mask top.msb self.msb
  let l ← Plane.select mask top.lsb self.lsb
  let o ← self.opacity.or mask
  return ⟨m, l, o⟩

/-- `below(top)` (49_display.md R393). -/
def ImageLine.below (self top : ImageLine) : Checked ImageLine := self.belowMask top top.opacity

/-- One plane of `join`. -/
def Plane.join (p q : Plane) (n : Nat) : Plane := ⟨p.bits.take n ++ q.bits.drop n⟩

/-- `join(other, n)`: pixels 0..n-1 from self, the rest from other (49_display.md R393). -/
def ImageLine.join (self other : ImageLine) (n : Nat) : Checked ImageLine :=
  if self.size ≠ other.size then .error (.sizeMismatch self.size other.size)
  else if self.size < n then .error (.indexOutOfRange n)
  else .ok ⟨self.msb.join other.msb n, self.lsb.join other.lsb n, self.opacity.join other.opacity n⟩

/-- Image: lines of one width, from the top (49_display.md R394). -/
structure Image where
  imageWidth : Nat
  lines : List ImageLine
  deriving DecidableEq, Repr

/-- `width()` (49_display.md R394). -/
def Image.width (im : Image) : Nat := im.imageWidth

/-- `height()` (49_display.md R394). -/
def Image.height (im : Image) : Nat := im.lines.length

/-- `get(x, y)`, the colour of pixel x of line y (49_display.md R394). -/
def Image.get (im : Image) (x y : Nat) : Checked Pixel :=
  match im.lines[y]? with
  | none => .error (.indexOutOfRange y)
  | some l => if x < im.imageWidth then .ok (l.colour x) else .error (.indexOutOfRange x)

/-- The image builder: a fixed width, one slot a line (49_display.md R394). -/
structure ImageBuilder where
  builderWidth : Nat
  slots : List (Option ImageLine)
  deriving DecidableEq, Repr

/-- A builder of `h` unset lines of width `w` (49_display.md R394). -/
def ImageBuilder.new (w h : Nat) : Checked ImageBuilder :=
  if validSize w then .ok ⟨w, List.replicate h none⟩ else .error (.badSize w)

/-- `set_line(y, line)` (49_display.md R394). -/
def ImageBuilder.setLine (b : ImageBuilder) (y : Nat) (line : ImageLine) : Checked ImageBuilder :=
  if line.size ≠ b.builderWidth then .error (.sizeMismatch line.size b.builderWidth)
  else if b.slots.length ≤ y then .error (.indexOutOfRange y)
  else .ok { b with slots := b.slots.set y (some line) }

/-- `build()`: unset lines are empty lines (49_display.md R394, R366). -/
def ImageBuilder.build (b : ImageBuilder) : Checked Image := do
  let e ← ImageLine.empty b.builderWidth
  return ⟨b.builderWidth, b.slots.map (fun slot => slot.getD e)⟩

/-! ## The compositor in the algebra (49_display.md R395) -/

/-- A byte with its bits in reverse order: bit 7 of a tile byte is the leftmost pixel (49_display.md R372, section 5). -/
def reverseByte (v : Byte) : Byte := v.reverse

/-- The (msb, lsb) bytes of a row of tile data, in screen order. -/
def tileRowBytes (m : Memory) (addr r : Nat) : Byte × Byte :=
  (reverseByte (m.read (addr + 2 * r + 1)), reverseByte (m.read (addr + 2 * r)))

/-- The line of 256 pixels of a map row, from its 32 tile rows. -/
def mapRowLine (m : Memory) (lcdc : Byte) (base y : Nat) : Checked ImageLine :=
  ImageLine.ofBytes 256 ((List.range 32).map (fun k => tileRowBytes m (mapTile m lcdc base y k) (y % 8)))

/-- `bg`. -/
def bgLinePlanes (r : Lcd) (m : Memory) (ly : Nat) : Checked ImageLine :=
  if r.lcdc.getLsbD 0 then do
    let bg256 ← mapRowLine m r.lcdc (mapBase (r.lcdc.getLsbD 3)) ((ly + r.scy.toNat) % 256)
    let bg ← bg256.extractWrapped r.scx.toNat Config.lcdWidth
    return bg.mapColors r.bgp
  else ImageLine.empty Config.lcdWidth

/-- `win`, shifted to its start column. -/
def winLinePlanes (r : Lcd) (m : Memory) : Checked ImageLine := do
  let w256 ← mapRowLine m r.lcdc (mapBase (r.lcdc.getLsbD 6)) r.winLine
  let w160 ← w256.extractWrapped 0 Config.lcdWidth
  let w ← w160.shift ((r.wx.toNat : Int) - 7)
  return w.mapColors r.bgp

/-- `bgw`. -/
def bgWindowPlanes (r : Lcd) (m : Memory) (ly : Nat) : Checked ImageLine := do
  let bg ← bgLinePlanes r m ly
  if windowDrawn r ly then do
    let win ← winLinePlanes r m
    bg.join win (r.wx.toNat - 7)
  else return bg

/-- `one(k)`: the line of one sprite. -/
def spriteLinePlanes (r : Lcd) (m : Memory) (ly : Nat) (sp : Sprite) : Checked ImageLine := do
  let h := spriteHeight r.lcdc
  let row := tileRowBytes m (spriteTileAddr h sp) (spriteRow h ly sp)
  let row' := if sp.attr.getLsbD 5 then (reverseByte row.1, reverseByte row.2) else row
  let line ← ImageLine.ofBytes Config.lcdWidth [row']
  let moved ← line.shift ((sp.x.toNat : Int) - 8)
  return moved.mapColors (if sp.attr.getLsbD 4 then r.obp1 else r.obp0)

/-- One pass: sprites folded in reverse priority order, the best painted last. -/
def passPlanes (r : Lcd) (m : Memory) (ly : Nat) : List Sprite → Checked ImageLine
  | [] => ImageLine.empty Config.lcdWidth
  | sp :: rest => do
    let acc ← passPlanes r m ly rest
    let one ← spriteLinePlanes r m ly sp
    acc.below one

/-- `final`, its colours. -/
def composeLinePlanes (r : Lcd) (m : Memory) (ly : Nat) : Checked (List Pixel) := do
  let sprites := sortSprites (selectSprites r m ly)
  let bgw ← bgWindowPlanes r m ly
  let behind ← passPlanes r m ly (passSprites true sprites)
  let front ← passPlanes r m ly (passSprites false sprites)
  let mask ← bgw.opacity.or behind.opacity.not
  let lower ← behind.belowMask bgw mask
  let final ← lower.below front
  return final.colours

end Sys2Proof.Machine
end

