-- ==== Sys2Proof/Safety.lean ====
section
/-! DEFINITION. The terms claims are stated in: a machine that runs, the invariants of the machine's own steps, and which
bytes of the address space a store may change. -/

namespace Sys2Proof.Machine

/-- The machine has not met a fatal condition; every tick of such a machine is a next state (10_state.md R58). -/
def State.Running (s : State) : Prop := s.fatal = none

/-- The CPU is halted exactly when its watermark is INF (10_state.md R34). -/
def State.Halted (s : State) : Prop := s.cpu.next = none

/-- The display is powered up exactly when its watermark is not INF (10_state.md R56). -/
def State.DisplayOn (s : State) : Prop := s.lcd.next ≠ none

/-- A frame of the display's geometry: 144 lines of 160 pixels (10_state.md R55). -/
def frameShape (image : List (List Pixel)) : Prop :=
  image.length = Config.lcdHeight ∧ ∀ row ∈ image, row.length = Config.lcdWidth

/-- The frame builder's shape: 144 slots, each empty or one line of 160 pixels (10_state.md R55). -/
def builderShape (slots : List (Option (List Pixel))) : Prop :=
  slots.length = Config.lcdHeight ∧ ∀ slot ∈ slots, ∀ row ∈ slot, row.length = Config.lcdWidth

/-- A memory component's bytes are canonical, and lie in its window. -/
def PlatformComponent.wf : PlatformComponent → Bool
  | .memory first last _ cells => cells.wf && cells.all (fun cell => decide (first ≤ cell.1 ∧ cell.1 ≤ last))
  | _ => true

/-- A component without its own state: what is fixed at construction (20_memory.md R70, 10_state.md R59). -/
def PlatformComponent.kind : PlatformComponent → PlatformComponent
  | .memory first last writable _ => .memory first last writable []
  | .external number _ => .external number 0
  | c => c

/-- What holds of every state that a run reaches, and what every tick keeps. -/
structure State.Inv (s : State) : Prop where
  /-- The storage list is canonical (log 3). -/
  memCanonical : s.mem.wf = true
  /-- The storage list names storage only (20_memory.md R84). -/
  memOnStorage : s.mem.onStorage = true
  /-- Every platform component's own bytes are canonical and in its window (log 4). -/
  platformCanonical : s.platform.all PlatformComponent.wf = true
  /-- `F[3:0]` is 0 (10_state.md R22, R24). -/
  flagsLow : s.cpu.f &&& 0x0F#8 = 0#8
  /-- The two low bits of the counter are 0 (48_timer.md R320). -/
  counterLow : s.timer.counter &&& 3#16 = 0#16
  /-- LY is 0..153 (10_state.md R44). -/
  lineRange : s.lcd.ly.toNat ≤ 153
  /-- The DMA cursor is 0..0xA0 (10_state.md R52). -/
  dmaRange : s.lcd.dmaIdx ≤ Config.dmaLength
  /-- The latched source page is the DMA register (10_state.md R46, R52). -/
  dmaLatched : s.lcd.dmaSrc = s.lcd.dma
  /-- The published image has the display's geometry. -/
  frameCurShape : frameShape s.lcd.frameCur
  /-- The frame builder has the display's geometry. -/
  frameNextShape : builderShape s.lcd.frameNext
  /-- The CPU's watermark is not in the past (10_state.md R33). -/
  cpuNotLate : ∀ n ∈ s.cpu.next, s.now ≤ n
  /-- The display's watermark is not in the past (10_state.md R56). -/
  lcdNotLate : ∀ n ∈ s.lcd.next, s.now ≤ n
  /-- A display that is powered up has its enable bit set (49_display.md R364). -/
  lcdEnabled : s.lcd.next ≠ none → s.lcd.lcdc.getLsbD 7 = true

/-! ## The display's schedule (49_display.md R344, R368) -/

/-- The line of the last tick before `now`, counted from power-up. -/
def lastLine (s : State) : Nat := (s.now - 1 - s.lcd.onCycle) % Config.frameCycles / Config.lineCycles

/-- The position in its line of the last tick before `now`. -/
def lastPos (s : State) : Nat := (s.now - 1 - s.lcd.onCycle) % Config.frameCycles % Config.lineCycles

/-- The mode at a position of a line (49_display.md R344). -/
def scheduledMode (line pos : Nat) : Pixel :=
  if line < 144 then (if pos < 20 then 2#2 else if pos < 63 then 3#2 else 0#2) else 1#2

/-- Where the segment of a position ends, as a position (49_display.md R344). -/
def segmentEnd (line pos : Nat) : Nat :=
  if line < 144 then (if pos < 20 then 20 else if pos < 63 then 63 else 114) else 114

/-- How many lines of the frame are composited at a position: each at its position 20 (49_display.md R361). -/
def composedLines (line pos : Nat) : Nat := if line < 144 then (if pos < 20 then line else line + 1) else 144

/-- With the display on, LY, the mode field, the watermark, the window counter's bound and the filled slots of the frame
builder are those of the schedule. -/
structure State.OnSchedule (s : State) : Prop where
  /-- Power-up lies before `now`. -/
  started : s.lcd.onCycle < s.now
  /-- LY is the line. -/
  line : s.lcd.ly.toNat = lastLine s
  /-- The mode field is the segment's. -/
  mode : s.lcd.stat.extractLsb' 0 2 = scheduledMode (lastLine s) (lastPos s)
  /-- The watermark is the end of the segment. -/
  watermark : s.lcd.next = some (s.now - 1 - lastPos s + segmentEnd (lastLine s) (lastPos s))
  /-- The window counter has not passed the composited lines (49_display.md R386). -/
  window : s.lcd.winLine ≤ composedLines (lastLine s) (lastPos s)
  /-- Every composited line's slot is filled (49_display.md R366). -/
  filled : ∀ y < composedLines (lastLine s) (lastPos s), ∃ row, s.lcd.frameNext[y]? = some (some row)

/-- The schedule holds whenever the display is on, and the frame builder keeps its 144 slots. -/
def State.ScheduleInv (s : State) : Prop :=
  s.lcd.frameNext.length = Config.lcdHeight ∧ (s.DisplayOn → s.OnSchedule)

/-! ## What a store may change -/

/-- The addresses besides `a` itself, and besides the mirror of `a`, whose byte a store to `a` may change: TIMA and IF
through the Timer's edge (48_timer.md R327, R330), STAT, LY and IF through the power-down and the comparison (49_display.md
R353, R357). -/
def sideAddresses (a : Word) : List Word :=
  if a = 0xFF04#16 ∨ a = 0xFF07#16 then [0xFF05#16, 0xFF0F#16]
  else if a = 0xFF40#16 then [0xFF41#16, 0xFF44#16, 0xFF0F#16]
  else if a = 0xFF45#16 then [0xFF41#16, 0xFF0F#16]
  else []

/-- Whether `a` and `b` name one byte of the work RAM, one of them in the echo (20_memory.md R90). -/
def mirrors (a b : Word) : Bool := (workRamCell a).isSome && (workRamCell a == workRamCell b)

/-- Whether a platform component may answer a read: the windows of those that are described, every address for the others. -/
def PlatformComponent.mayAnswer (a : Word) : PlatformComponent → Bool
  | .cartridge => inWindow 0x0000 0x7FFF a
  | .workRam => (workRamCell a).isSome
  | .memory first last _ _ => inWindow first last a
  | .external _ _ => true

/-- Whether a component is one specified only at its boundary. -/
def PlatformComponent.isExternal : PlatformComponent → Bool
  | .external _ _ => true
  | _ => false

/-- The first platform component that may answer a read of an address that no unit of the core decodes (20_memory.md R73). -/
def State.server (s : State) (a : Word) : Option PlatformComponent :=
  if coreDecodes a then none else s.platform.find? (PlatformComponent.mayAnswer a)

/-- Whether a component specified only at its boundary may answer a read of an address. -/
def State.servedExternally (s : State) (a : Word) : Bool := (s.server a).any PlatformComponent.isExternal

/-- Whether a store to `a` may change what a read of `b` gives: a component specified only at its boundary may change what it
answers, and request an interrupt, at any store (20_memory.md R74, R91). -/
def State.touches (s : State) (a b : Word) : Bool :=
  a == b || mirrors a b || (sideAddresses a).contains b ||
    (s.platform.any PlatformComponent.isExternal && (b == 0xFF0F#16 || s.servedExternally b))

/-- Whether an address is plain storage of the core: VRAM, OAM, HRAM (20_memory.md R84). -/
def coreRam (a : Word) : Bool := lcdDecodesRam a || inWindow 0xFF80 0xFFFE a

/-- Whether an address is plain read-write storage: that of the core, the work RAM and its echo, a RAM of the platform, where no
component attached ahead of it may answer (20_memory.md R73, R83, R84). -/
def State.plainRam (s : State) (a : Word) : Bool :=
  coreRam a ||
    match s.server a with
    | some .workRam => true
    | some (.memory _ _ writable _) => writable
    | _ => false

/-- Every list of stored bytes is canonical. -/
def State.storageWf (s : State) : Bool := s.mem.wf && s.platform.all PlatformComponent.wf

end Sys2Proof.Machine
end

