-- ==== Sys2Proof/Certificates/Slice0/Obligations.lean ====
section
/-! DEFINITION. The statements for the provers, `def Obligations.<Name> : Prop`, and the vocabulary they are written in,
which follows the spec's tables and arithmetic and not the model's own operations. -/

namespace Sys2Proof.Spec

open Sys2Proof.Machine

/-! ## Codes and operands -/

/-- The field r8 (30_encoding.md R116). -/
def r8 : Reg8 → Byte
  | .b => 0#8
  | .c => 1#8
  | .d => 2#8
  | .e => 3#8
  | .h => 4#8
  | .l => 5#8
  | .a => 7#8

/-- The field r16, in place at bits 5..4 (30_encoding.md R117). -/
def r16 : Pair → Byte
  | .bc => 0x00#8
  | .de => 0x10#8
  | .hl => 0x20#8
  | .sp => 0x30#8

/-- The field r16stk, in place at bits 5..4 (30_encoding.md R118). -/
def r16stk : StackPair → Byte
  | .bc => 0x00#8
  | .de => 0x10#8
  | .hl => 0x20#8
  | .af => 0x30#8

/-- The field cc, in place at bits 4..3 (30_encoding.md R120). -/
def cc : Cond → Byte
  | .nz => 0x00#8
  | .z => 0x08#8
  | .nc => 0x10#8
  | .c => 0x18#8

/-- A 3-bit field in place at bits 5..3 (30_encoding.md R115). -/
def field3 (b : Fin 8) : Byte := 8#8 * BitVec.ofNat 8 b.val

/-- The views BC, DE, HL (10_state.md R21) and SP, by the field r16. -/
def pairValue (s : State) : Pair → Word
  | .bc => joinBytes s.cpu.b s.cpu.c
  | .de => joinBytes s.cpu.d s.cpu.e
  | .hl => joinBytes s.cpu.h s.cpu.l
  | .sp => s.cpu.sp

/-- The views of the field r16stk (10_state.md R21). -/
def stackPairValue (s : State) : StackPair → Word
  | .bc => joinBytes s.cpu.b s.cpu.c
  | .de => joinBytes s.cpu.d s.cpu.e
  | .hl => joinBytes s.cpu.h s.cpu.l
  | .af => joinBytes s.cpu.a s.cpu.f

/-- The byte registers a pair is made of. -/
def pairRegs : Pair → List Reg8
  | .bc => [.b, .c]
  | .de => [.d, .e]
  | .hl => [.h, .l]
  | .sp => []

/-- The address HL. -/
def hl (s : State) : Word := joinBytes s.cpu.h s.cpu.l

/-- The condition of the field cc (46_control.md R292). -/
def holds (s : State) : Cond → Prop
  | .nz => s.cpu.f.getLsbD 7 = false
  | .z => s.cpu.f.getLsbD 7 = true
  | .nc => s.cpu.f.getLsbD 4 = false
  | .c => s.cpu.f.getLsbD 4 = true

/-- The three forms of a right operand (43_arith8.md, the table before R215): a register, `(HL)`, an immediate. -/
inductive Source where
  | reg (r : Reg8)
  | mem
  | imm (n : Byte)
  deriving DecidableEq, Repr

/-- The operand's byte. -/
def Source.value (s : State) : Source → Byte
  | .reg r => s.reg r
  | .mem => busRead s (hl s)
  | .imm n => n

/-- The cost of a two-operand instruction of that form. -/
def Source.cost : Source → Nat
  | .reg _ => 1
  | .mem => 2
  | .imm _ => 2

/-- The bytes of the two-operand instruction with operation field `y` (30_encoding.md R121). -/
def aluBytes (y : Byte) : Source → List Byte
  | .reg r => [0x80#8 + 8#8 * y + r8 r]
  | .mem => [0x86#8 + 8#8 * y]
  | .imm n => [0xC6#8 + 8#8 * y, n]

/-! ## What an instruction does and leaves -/

/-- The byte registers outside `dest` are as before. -/
def RegsKept (dest : List Reg8) (s t : State) : Prop := ∀ r, r ∉ dest → t.reg r = s.reg r

/-- `i` has the bytes `bytes`; executed at `s` it completes in `t`, with PC at `target` and `cost` cycles charged. -/
structure Goes (i : Instr) (bytes : List Byte) (target : Word) (cost : Nat) (s t : State) : Prop where
  encoding : encode i = bytes
  completes : exec i s = .next t
  pc : t.cpu.pc = target
  next : t.cpu.next = some (s.now + cost)

/-- `Goes` to the instruction after it (30_encoding.md R112, R113). -/
def Runs (i : Instr) (bytes : List Byte) (cost : Nat) (s t : State) : Prop :=
  Goes i bytes (s.cpu.pc + BitVec.ofNat 16 bytes.length) cost s t

/-- No memory, device or global state changes: IF, IE, the Timer, the Display Controller, the storage, the platform, every byte
a read gives, the host's events, `now` and `fatal`. -/
structure Outside (s t : State) : Prop where
  ifReg : t.cpu.ifReg = s.cpu.ifReg
  ie : t.cpu.ie = s.cpu.ie
  timer : t.timer = s.timer
  lcd : t.lcd = s.lcd
  mem : t.mem = s.mem
  platform : t.platform = s.platform
  hostEvents : t.hostEvents = s.hostEvents
  now : t.now = s.now
  fatal : t.fatal = s.fatal
  reads : ∀ a : Word, busRead t a = busRead s a

/-- An instruction that changes byte registers of `dest`, F, PC and the watermark at most. -/
def RegisterOnly (i : Instr) (bytes : List Byte) (cost : Nat) (dest : List Reg8) (s t : State) : Prop :=
  Runs i bytes cost s t ∧ Outside s t ∧ RegsKept dest s t ∧ t.cpu.sp = s.cpu.sp ∧ t.cpu.ime = s.cpu.ime

/-- F is made of these four flags and a low nibble of 0 (10_state.md R22). -/
def FlagsAre (t : State) (z n h c : Bool) : Prop :=
  t.cpu.f.getLsbD 7 = z ∧ t.cpu.f.getLsbD 6 = n ∧ t.cpu.f.getLsbD 5 = h ∧ t.cpu.f.getLsbD 4 = c ∧ t.cpu.f &&& 0x0F#8 = 0#8

/-- The frame of an instruction that stores to the addresses `stored`, and may change the byte registers `dest`, F, SP, PC
and the watermark: every byte that no such store touches reads as before, no hidden state of a device changes but by a store
to the register that changes it, and the attached list is the same but for what its components store. -/
structure StoreFrame (stored : List Word) (dest : List Reg8) (s t : State) : Prop where
  regs : RegsKept dest s t
  hostEvents : t.hostEvents = s.hostEvents
  now : t.now = s.now
  fatal : t.fatal = s.fatal
  reads : ∀ b : Word, (∀ a ∈ stored, s.touches a b = false) → busRead t b = busRead s b
  attached : t.platform.map PlatformComponent.kind = s.platform.map PlatformComponent.kind
  images : t.lcd.frameCur = s.lcd.frameCur ∧ t.lcd.frameNext = s.lcd.frameNext
  display : t.lcd.onCycle = s.lcd.onCycle ∧ t.lcd.winLine = s.lcd.winLine
  counter : 0xFF04#16 ∉ stored → t.timer.counter = s.timer.counter
  lcdNext : 0xFF40#16 ∉ stored → t.lcd.next = s.lcd.next
  dmaEngine : 0xFF46#16 ∉ stored → t.lcd.dmaSrc = s.lcd.dmaSrc ∧ t.lcd.dmaIdx = s.lcd.dmaIdx

/-- The memory and device state of `t` is that of `u`. -/
structure Delivered (u t : State) : Prop where
  ifReg : t.cpu.ifReg = u.cpu.ifReg
  ie : t.cpu.ie = u.cpu.ie
  timer : t.timer = u.timer
  lcd : t.lcd = u.lcd
  mem : t.mem = u.mem
  platform : t.platform = u.platform

/-- The one byte store of an instruction is the bus write of `v` to `a`, and in plain memory it reads back. -/
structure StoresByte (a : Word) (v : Byte) (dest : List Reg8) (s t : State) : Prop where
  frame : StoreFrame [a] dest s t
  delivered : Delivered (busWrite s a v) t
  readBack : s.plainRam a = true → s.storageWf = true → busRead t a = v

/-- The two byte stores of a 16-bit access: the low byte to `a`, then the high byte to `a + 1` (20_memory.md R80). -/
structure StoresWord (a : Word) (v : Word) (s t : State) : Prop where
  frame : StoreFrame [a, a + 1#16] [] s t
  delivered : Delivered (busWrite (busWrite s a (lo v)) (a + 1#16) (hi v)) t
  readBack : s.plainRam a = true → s.plainRam (a + 1#16) = true → s.storageWf = true →
    busRead t a = lo v ∧ busRead t (a + 1#16) = hi v

/-- A push of `v` (42_load16_stack.md R204): SP goes down by 2, the word is stored at the new SP. -/
def Pushes (v : Word) (s t : State) : Prop := t.cpu.sp = s.cpu.sp - 2#16 ∧ StoresWord (s.cpu.sp - 2#16) v s t

/-- The word on the stack (42_load16_stack.md R205). -/
def stacked (s : State) : Word := joinBytes (busRead s (s.cpu.sp + 1#16)) (busRead s s.cpu.sp)

/-! ## Loads -/

/-- `LD r,x` for the three forms of x. -/
def loadOf (rd : Reg8) : Source → Instr
  | .reg r => .ldRR rd r
  | .mem => .ldRHl rd
  | .imm n => .ldRN8 rd n

/-- The bytes of `LD r,x` (41_load8.md R170 to R172). -/
def loadBytes (rd : Reg8) : Source → List Byte
  | .reg r => [0x40#8 + 8#8 * r8 rd + r8 r]
  | .mem => [0x46#8 + 8#8 * r8 rd]
  | .imm n => [0x06#8 + 8#8 * r8 rd, n]

/-- A load of A from an address. -/
def LoadsA (i : Instr) (bytes : List Byte) (cost : Nat) (a : Word) (s : State) : Prop :=
  ∃ t, RegisterOnly i bytes cost [.a] s t ∧ t.cpu.f = s.cpu.f ∧ t.cpu.a = busRead s a

/-- A load of A from HL, HL moved to `hl'`. -/
def LoadsAStepping (i : Instr) (bytes : List Byte) (hl' : Word) (s : State) : Prop :=
  ∃ t, RegisterOnly i bytes 2 [.a, .h, .l] s t ∧ t.cpu.f = s.cpu.f ∧ t.cpu.a = busRead s (hl s) ∧ hl t = hl'

/-- A store of one byte. -/
def StoresAt (i : Instr) (bytes : List Byte) (cost : Nat) (a : Word) (v : Byte) (s : State) : Prop :=
  ∃ t, Runs i bytes cost s t ∧ StoresByte a v [] s t ∧ t.cpu.f = s.cpu.f ∧ t.cpu.sp = s.cpu.sp ∧ t.cpu.ime = s.cpu.ime

/-- A store of A to HL, HL moved to `hl'`. -/
def StoresAStepping (i : Instr) (bytes : List Byte) (hl' : Word) (s : State) : Prop :=
  ∃ t, Runs i bytes 2 s t ∧ StoresByte (hl s) s.cpu.a [.h, .l] s t ∧ hl t = hl' ∧ t.cpu.f = s.cpu.f ∧
    t.cpu.sp = s.cpu.sp ∧ t.cpu.ime = s.cpu.ime

/-! ## Arithmetic -/

/-- `ADD A,x`, or `ADC A,x` with the carry. -/
def addOf (withCarry : Bool) : Source → Instr
  | .reg r => if withCarry then .adcAR r else .addAR r
  | .mem => if withCarry then .adcAHl else .addAHl
  | .imm n => if withCarry then .adcAN8 n else .addAN8 n

/-- `SUB A,x`, or `SBC A,x` with the carry. -/
def subOf (withCarry : Bool) : Source → Instr
  | .reg r => if withCarry then .sbcAR r else .subAR r
  | .mem => if withCarry then .sbcAHl else .subAHl
  | .imm n => if withCarry then .sbcAN8 n else .subAN8 n

/-- `CP A,x`. -/
def cpOf : Source → Instr
  | .reg r => .cpAR r
  | .mem => .cpAHl
  | .imm n => .cpAN8 n

/-- `AND A,x`. -/
def andOf : Source → Instr
  | .reg r => .andAR r
  | .mem => .andAHl
  | .imm n => .andAN8 n

/-- `XOR A,x`. -/
def xorOf : Source → Instr
  | .reg r => .xorAR r
  | .mem => .xorAHl
  | .imm n => .xorAN8 n

/-- `OR A,x`. -/
def orOf : Source → Instr
  | .reg r => .orAR r
  | .mem => .orAHl
  | .imm n => .orAN8 n

/-- The carry in of ADC and SBC: the live C, or 0. -/
def carryIn (withCarry : Bool) (s : State) : Nat := if withCarry then (s.cpu.f.getLsbD 4).toNat else 0

/-- `l + r + cin = sum` in 8 bits with carry `c` out of bit 7 and `h` out of bit 3: the two equations determine all
three (40_alu.md R141). -/
def AddsTo (l r : Byte) (cin : Nat) (sum : Byte) (h c : Bool) : Prop :=
  l.toNat + r.toNat + cin = sum.toNat + 256 * c.toNat ∧
    l.toNat % 16 + r.toNat % 16 + cin = sum.toNat % 16 + 16 * h.toNat

/-- Two's complement subtraction with borrow `c` and half borrow `h` (40_alu.md R142). -/
def SubtractsTo (l r : Byte) (bin : Nat) (diff : Byte) (h c : Bool) : Prop := AddsTo diff r bin l h c

/-- A packed decimal byte of a number below 100. -/
def packed (k : Nat) : Byte := BitVec.ofNat 8 (16 * (k / 10) + k % 10)

/-! ## Shifts -/

/-- The eight operations of 30_encoding.md R122, x = 0. -/
inductive Shift where
  | rlc | rrc | rl | rr | sla | sra | swap | srl
  deriving DecidableEq, Repr

/-- Field y of the prefixed byte (30_encoding.md R122). -/
def Shift.code : Shift → Byte
  | .rlc => 0#8
  | .rrc => 1#8
  | .rl => 2#8
  | .rr => 3#8
  | .sla => 4#8
  | .sra => 5#8
  | .swap => 6#8
  | .srl => 7#8

/-- The result as a number, `c` the live carry (40_alu.md R149 to R154). -/
def Shift.result (v c : Nat) : Shift → Nat
  | .rlc => (2 * v + v / 128) % 256
  | .rrc => v / 2 + 128 * (v % 2)
  | .rl => (2 * v + c) % 256
  | .rr => v / 2 + 128 * c
  | .sla => 2 * v % 256
  | .sra => v / 2 + 128 * (v / 128)
  | .swap => 16 * (v % 16) + v / 16
  | .srl => v / 2

/-- The bit shifted out (40_alu.md R149 to R154). -/
def Shift.out (v : Byte) : Shift → Bool
  | .rlc | .rl | .sla => v.getLsbD 7
  | .rrc | .rr | .sra | .srl => v.getLsbD 0
  | .swap => false

/-- The register form. -/
def Shift.onReg (r : Reg8) : Shift → Instr
  | .rlc => .rlcR r
  | .rrc => .rrcR r
  | .rl => .rlR r
  | .rr => .rrR r
  | .sla => .slaR r
  | .sra => .sraR r
  | .swap => .swapR r
  | .srl => .srlR r

/-- The `(HL)` form. -/
def Shift.onHl : Shift → Instr
  | .rlc => .rlcHl
  | .rrc => .rrcHl
  | .rl => .rlHl
  | .rr => .rrHl
  | .sla => .slaHl
  | .sra => .sraHl
  | .swap => .swapHl
  | .srl => .srlHl

/-- One turn of the 9-bit rotate on the pair (value, carry) (40_alu.md R153). -/
def turn (dir : Dir) (x : Byte × Bool) : Byte × Bool :=
  ((aluRotateCarry dir x.1 x.2).value, (aluRotateCarry dir x.1 x.2).flags.c)

/-! ## The machine -/

/-- The eleven unassigned bytes and their instructions (30_encoding.md R127). -/
def unassigned : List (Byte × Instr) :=
  [(0xD3#8, .illegalD3), (0xDB#8, .illegalDB), (0xDD#8, .illegalDD), (0xE3#8, .illegalE3), (0xE4#8, .illegalE4),
   (0xEB#8, .illegalEB), (0xEC#8, .illegalEC), (0xED#8, .illegalED), (0xF4#8, .illegalF4), (0xFC#8, .illegalFC),
   (0xFD#8, .illegalFD)]

/-- The three bytes at PC. -/
def bytesAtPc (s : State) : List Byte :=
  [busRead s s.cpu.pc, busRead s (s.cpu.pc + 1#16), busRead s (s.cpu.pc + 2#16)]

/-- The state the CPU acts on in a tick: after the host's events, the Timer, the Display Controller and the wake test, in
that order (70_reset_and_hazards.md R470, 60_exceptions.md R428). -/
def atCpu (s : State) : State := wakeTest (lcdTick (timerTick (deliverHostEvents s)))

/-- The end of a tick: `now` goes on unless a Fatal was raised (70_reset_and_hazards.md R470). -/
def ended (t : State) : State := if t.fatal = none then { t with now := t.now + 1 } else t

/-- The counter bit that TAC selects (48_timer.md R321). -/
def selectedBit (tac : Byte) : Nat :=
  match tac.getLsbD 1, tac.getLsbD 0 with
  | false, false => 9
  | false, true => 3
  | true, false => 5
  | true, true => 7

/-- The edge detector's input (48_timer.md R322). -/
def edgeInput (tac : Byte) (counter : Word) : Bool := tac.getLsbD 2 && counter.getLsbD (selectedBit tac)

/-- What the edge rule leaves of the Timer and IF when the counter and TAC become those given (48_timer.md R323, R324). -/
def afterEdge (s : State) (tac : Byte) (counter : Word) : State :=
  if edgeInput s.timer.tac s.timer.counter = true ∧ edgeInput tac counter = false then
    if s.timer.tima = 0xFF#8 then
      { s with
        timer := { s.timer with tac := tac, counter := counter, tima := s.timer.tma }
        cpu := { s.cpu with ifReg := s.cpu.ifReg ||| 0x04#8 } }
    else { s with timer := { s.timer with tac := tac, counter := counter, tima := s.timer.tima + 1#8 } }
  else { s with timer := { s.timer with tac := tac, counter := counter } }

/-- What a comparison leaves of STAT and IF (49_display.md R359). -/
def compared (s : State) : State :=
  if s.lcd.ly = s.lcd.lyc then
    { s with
      lcd := { s.lcd with stat := s.lcd.stat ||| 0x04#8 }
      cpu := { s.cpu with ifReg := if s.lcd.stat.getLsbD 6 then s.cpu.ifReg ||| 0x02#8 else s.cpu.ifReg } }
  else { s with lcd := { s.lcd with stat := s.lcd.stat &&& 0xFB#8 } }

/-- What a mode entry leaves of STAT and IF; `enable` is the mode's interrupt-enable bit, none for mode 3
(49_display.md R362). -/
def entered (mode : Byte) (enable : Option Nat) (s : State) : State :=
  { s with
    lcd := { s.lcd with stat := (s.lcd.stat &&& 0xFC#8) ||| mode }
    cpu := { s.cpu with ifReg := if enable.any s.lcd.stat.getLsbD then s.cpu.ifReg ||| 0x02#8 else s.cpu.ifReg } }

/-- The addresses of the core's storage: VRAM, OAM, HRAM (20_memory.md R84). -/
def coreStorage (a : Word) : Prop :=
  (0x8000 ≤ a.toNat ∧ a.toNat ≤ 0x9FFF) ∨ (0xFE00 ≤ a.toNat ∧ a.toNat ≤ 0xFE9F) ∨ (0xFF80 ≤ a.toNat ∧ a.toNat ≤ 0xFFFE)

/-- The addresses of the core's registers: the Timer's four, IF, the display's twelve, IE (20_memory.md R75 to R77). -/
def coreRegister (a : Word) : Prop :=
  (0xFF04 ≤ a.toNat ∧ a.toNat ≤ 0xFF07) ∨ a.toNat = 0xFF0F ∨ (0xFF40 ≤ a.toNat ∧ a.toNat ≤ 0xFF4B) ∨ a.toNat = 0xFFFF

/-- The addresses that no unit of the core decodes: the platform's. -/
def platformAddress (a : Word) : Prop := ¬coreStorage a ∧ ¬coreRegister a

/-- The addresses that neither the core nor the default platform decodes, and the cartridge's, which drops writes (20_memory.md
R85, R90). -/
def droppedByDefault (a : Word) : Prop :=
  a.toNat ≤ 0x7FFF ∨ (0xA000 ≤ a.toNat ∧ a.toNat ≤ 0xBFFF) ∨ (0xFEA0 ≤ a.toNat ∧ a.toNat ≤ 0xFF03) ∨
  (0xFF08 ≤ a.toNat ∧ a.toNat ≤ 0xFF0E) ∨ (0xFF10 ≤ a.toNat ∧ a.toNat ≤ 0xFF3F) ∨ (0xFF4C ≤ a.toNat ∧ a.toNat ≤ 0xFF7F)

/-- The state in which one component of the platform is replaced by `c'` and the components after it are those of `u`. -/
def attachedBefore (c' : PlatformComponent) (u : State) : State := { u with platform := c' :: u.platform }

/-- What the power-up test, the first part of the display's hook, leaves (49_display.md R360, R365). -/
def powered (s : State) : State :=
  if s.lcd.next = none ∧ s.lcd.lcdc.getLsbD 7 = true then
    { s with lcd := { s.lcd with onCycle := s.now, next := some s.now } }
  else s

/-- Entry `k` of OAM (49_display.md R380). -/
def oamEntry (m : Memory) (k : Nat) : Sprite :=
  ⟨m.read (0xFE00 + 4 * k), m.read (0xFE00 + 4 * k + 1), m.read (0xFE00 + 4 * k + 2), m.read (0xFE00 + 4 * k + 3)⟩

/-- Entry `k` meets the line: `Y - 16 <= ly < Y - 16 + h` (49_display.md R379). -/
def meetsLine (r : Lcd) (m : Memory) (ly k : Nat) : Prop :=
  (oamEntry m k).y.toNat ≤ ly + 16 ∧ ly + 16 < (oamEntry m k).y.toNat + (if r.lcdc.getLsbD 2 then 16 else 8)

/-- The storage outside OAM is as before. -/
def StorageKept (s t : State) : Prop := ∀ a : Nat, a < 0xFE00 ∨ 0xFE9F < a → t.mem.read a = s.mem.read a

end Sys2Proof.Spec

open Sys2Proof Sys2Proof.Machine Sys2Proof.Spec

/-! # 8-bit loads -/

/-- `LD r,r'`, `LD r,(HL)`, `LD r,n8` (41_load8.md R170, R171, R172): bytes, cost, result and frame. -/
def Obligations.LoadRegister : Prop :=
  ∀ (rd : Reg8) (x : Source) (s : State), ∃ t,
    RegisterOnly (loadOf rd x) (loadBytes rd x) x.cost [rd] s t ∧ t.cpu.f = s.cpu.f ∧ t.reg rd = x.value s

/-- The loads of A (41_load8.md R175, R176, R179, R180, R183, R185, R187): bytes, cost, result and frame. -/
def Obligations.LoadAccumulator : Prop :=
  ∀ (s : State) (n : Byte) (w : Word),
    LoadsA .ldABc [0x0A#8] 2 (joinBytes s.cpu.b s.cpu.c) s ∧
    LoadsA .ldADe [0x1A#8] 2 (joinBytes s.cpu.d s.cpu.e) s ∧
    LoadsA (.ldAN16 w) [0xFA#8, lo w, hi w] 4 w s ∧
    LoadsA (.ldhAN8 n) [0xF0#8, n] 3 (joinBytes 0xFF#8 n) s ∧
    LoadsA .ldAC [0xF2#8] 2 (joinBytes 0xFF#8 s.cpu.c) s ∧
    LoadsAStepping .ldAHlInc [0x2A#8] (hl s + 1#16) s ∧
    LoadsAStepping .ldAHlDec [0x3A#8] (hl s - 1#16) s

/-- The stores of one byte (41_load8.md R173, R174, R177, R178, R181, R182, R184, R186, R188): bytes, cost, the address and
the byte stored, and the frame. -/
def Obligations.StoreByte : Prop :=
  ∀ (s : State) (r : Reg8) (n : Byte) (w : Word),
    StoresAt (.ldHlR r) [0x70#8 + r8 r] 2 (hl s) (s.reg r) s ∧
    StoresAt (.ldHlN8 n) [0x36#8, n] 3 (hl s) n s ∧
    StoresAt .ldBcA [0x02#8] 2 (joinBytes s.cpu.b s.cpu.c) s.cpu.a s ∧
    StoresAt .ldDeA [0x12#8] 2 (joinBytes s.cpu.d s.cpu.e) s.cpu.a s ∧
    StoresAt (.ldN16A w) [0xEA#8, lo w, hi w] 4 w s.cpu.a s ∧
    StoresAt (.ldhN8A n) [0xE0#8, n] 3 (joinBytes 0xFF#8 n) s.cpu.a s ∧
    StoresAt .ldCA [0xE2#8] 2 (joinBytes 0xFF#8 s.cpu.c) s.cpu.a s ∧
    StoresAStepping .ldHlIncA [0x22#8] (hl s + 1#16) s ∧
    StoresAStepping .ldHlDecA [0x32#8] (hl s - 1#16) s

/-! # 16-bit loads and the stack -/

/-- `LD rr,n16` and `LD SP,HL` (42_load16_stack.md R200, R202). -/
def Obligations.LoadPair : Prop :=
  (∀ (p : Pair) (w : Word) (s : State), ∃ t,
    Runs (.ldRrN16 p w) [0x01#8 + r16 p, lo w, hi w] 3 s t ∧ Outside s t ∧ RegsKept (pairRegs p) s t ∧
    t.cpu.f = s.cpu.f ∧ t.cpu.ime = s.cpu.ime ∧ (p ≠ .sp → t.cpu.sp = s.cpu.sp) ∧ pairValue t p = w) ∧
  ∀ s : State, ∃ t,
    Runs .ldSpHl [0xF9#8] 2 s t ∧ Outside s t ∧ RegsKept [] s t ∧ t.cpu.f = s.cpu.f ∧ t.cpu.ime = s.cpu.ime ∧
    t.cpu.sp = hl s

/-- `LD HL,SP+e8` and `ADD SP,e8` (42_load16_stack.md R203, 44_arith16.md R251): the sum with the sign-extended
displacement, Z and N cleared, H and C from the unsigned addition of the low bytes. -/
def Obligations.SpPlusOffset : Prop :=
  ∀ (e : Byte) (s : State), ∃ (t u : State) (h c : Bool) (low : Byte),
    AddsTo (lo s.cpu.sp) e 0 low h c ∧
    (RegisterOnly (.ldHlSpE8 e) [0xF8#8, e] 3 [.h, .l] s t ∧ hl t = s.cpu.sp + e.signExtend 16 ∧
      FlagsAre t false false h c) ∧
    (Runs (.addSpE8 e) [0xE8#8, e] 4 s u ∧ Outside s u ∧ RegsKept [] s u ∧ u.cpu.ime = s.cpu.ime ∧
      u.cpu.sp = s.cpu.sp + e.signExtend 16 ∧ FlagsAre u false false h c)

/-- `LD (n16),SP` (42_load16_stack.md R201). -/
def Obligations.StoreStackPointer : Prop :=
  ∀ (w : Word) (s : State), ∃ t,
    Runs (.ldN16Sp w) [0x08#8, lo w, hi w] 5 s t ∧ StoresWord w s.cpu.sp s t ∧ t.cpu.f = s.cpu.f ∧
    t.cpu.sp = s.cpu.sp ∧ t.cpu.ime = s.cpu.ime

/-- `PUSH rr` (42_load16_stack.md R204). -/
def Obligations.PushPair : Prop :=
  ∀ (p : StackPair) (s : State), ∃ t,
    Runs (.pushRr p) [0xC5#8 + r16stk p] 4 s t ∧ Pushes (stackPairValue s p) s t ∧ t.cpu.f = s.cpu.f ∧
    t.cpu.ime = s.cpu.ime

/-- `POP rr` (42_load16_stack.md R205): BC, DE, HL take the word, AF its high byte and its masked low byte. -/
def Obligations.PopPair : Prop :=
  (∀ (p : Pair) (q : StackPair) (s : State), (p, q) ∈ [(Pair.bc, StackPair.bc), (.de, .de), (.hl, .hl)] → ∃ t,
    Runs (.popRr q) [0xC1#8 + r16stk q] 3 s t ∧ Outside s t ∧ RegsKept (pairRegs p) s t ∧ t.cpu.f = s.cpu.f ∧
    t.cpu.ime = s.cpu.ime ∧ t.cpu.sp = s.cpu.sp + 2#16 ∧ pairValue t p = stacked s) ∧
  ∀ s : State, ∃ t,
    Runs (.popRr .af) [0xF1#8] 3 s t ∧ Outside s t ∧ RegsKept [.a] s t ∧ t.cpu.ime = s.cpu.ime ∧
    t.cpu.sp = s.cpu.sp + 2#16 ∧ t.cpu.a = busRead s (s.cpu.sp + 1#16) ∧ t.cpu.f = busRead s s.cpu.sp &&& 0xF0#8

/-! # 8-bit arithmetic and logic -/

/-- ADD and ADC, the three forms of each (43_arith8.md R215 to R220). -/
def Obligations.AddAccumulator : Prop :=
  ∀ (withCarry : Bool) (x : Source) (s : State), ∃ (t : State) (h c : Bool),
    RegisterOnly (addOf withCarry x) (aluBytes (if withCarry then 1#8 else 0#8) x) x.cost [.a] s t ∧
    AddsTo s.cpu.a (x.value s) (carryIn withCarry s) t.cpu.a h c ∧
    FlagsAre t (t.cpu.a == 0#8) false h c

/-- SUB and SBC, the three forms of each (43_arith8.md R221 to R226). -/
def Obligations.SubAccumulator : Prop :=
  ∀ (withCarry : Bool) (x : Source) (s : State), ∃ (t : State) (h c : Bool),
    RegisterOnly (subOf withCarry x) (aluBytes (if withCarry then 3#8 else 2#8) x) x.cost [.a] s t ∧
    SubtractsTo s.cpu.a (x.value s) (carryIn withCarry s) t.cpu.a h c ∧
    FlagsAre t (t.cpu.a == 0#8) true h c

/-- CP, its three forms (43_arith8.md R236 to R238): the flags of SUB, A not written. -/
def Obligations.CompareAccumulator : Prop :=
  ∀ (x : Source) (s : State), ∃ (t : State) (h c : Bool) (diff : Byte),
    RegisterOnly (cpOf x) (aluBytes 7#8 x) x.cost [] s t ∧
    SubtractsTo s.cpu.a (x.value s) 0 diff h c ∧
    FlagsAre t (decide (s.cpu.a = x.value s)) true h (decide (s.cpu.a.toNat < (x.value s).toNat)) ∧
    c = decide (s.cpu.a.toNat < (x.value s).toNat)

/-- AND, XOR, OR, the three forms of each (43_arith8.md R227 to R235). -/
def Obligations.LogicAccumulator : Prop :=
  ∀ (x : Source) (s : State), ∃ t u w : State,
    (RegisterOnly (andOf x) (aluBytes 4#8 x) x.cost [.a] s t ∧
      (∀ i < 8, t.cpu.a.getLsbD i = (s.cpu.a.getLsbD i && (x.value s).getLsbD i)) ∧
      FlagsAre t (t.cpu.a == 0#8) false true false) ∧
    (RegisterOnly (xorOf x) (aluBytes 5#8 x) x.cost [.a] s u ∧
      (∀ i < 8, u.cpu.a.getLsbD i = (s.cpu.a.getLsbD i != (x.value s).getLsbD i)) ∧
      FlagsAre u (u.cpu.a == 0#8) false false false) ∧
    (RegisterOnly (orOf x) (aluBytes 6#8 x) x.cost [.a] s w ∧
      (∀ i < 8, w.cpu.a.getLsbD i = (s.cpu.a.getLsbD i || (x.value s).getLsbD i)) ∧
      FlagsAre w (w.cpu.a == 0#8) false false false)

/-- `INC r` and `DEC r` (43_arith8.md R239, R241): C unchanged. -/
def Obligations.StepRegister : Prop :=
  ∀ (r : Reg8) (s : State), ∃ (t u : State) (h h' c c' : Bool),
    (RegisterOnly (.incR r) [0x04#8 + 8#8 * r8 r] 1 [r] s t ∧ AddsTo (s.reg r) 1#8 0 (t.reg r) h c ∧
      FlagsAre t (t.reg r == 0#8) false h (s.cpu.f.getLsbD 4)) ∧
    (RegisterOnly (.decR r) [0x05#8 + 8#8 * r8 r] 1 [r] s u ∧ SubtractsTo (s.reg r) 1#8 0 (u.reg r) h' c' ∧
      FlagsAre u (u.reg r == 0#8) true h' (s.cpu.f.getLsbD 4))

/-- `INC (HL)` and `DEC (HL)` (43_arith8.md R240, R242): the byte read, changed by one, stored to the same address. -/
def Obligations.StepMemory : Prop :=
  ∀ s : State, ∃ (t u : State) (h h' c c' : Bool) (v w : Byte),
    (Runs .incHl [0x34#8] 3 s t ∧ AddsTo (busRead s (hl s)) 1#8 0 v h c ∧ StoresByte (hl s) v [] s t ∧
      FlagsAre t (v == 0#8) false h (s.cpu.f.getLsbD 4) ∧ t.cpu.sp = s.cpu.sp ∧ t.cpu.ime = s.cpu.ime) ∧
    (Runs .decHl [0x35#8] 3 s u ∧ SubtractsTo (busRead s (hl s)) 1#8 0 w h' c' ∧ StoresByte (hl s) w [] s u ∧
      FlagsAre u (w == 0#8) true h' (s.cpu.f.getLsbD 4) ∧ u.cpu.sp = s.cpu.sp ∧ u.cpu.ime = s.cpu.ime)

/-- `DAA` (43_arith8.md R244, 40_alu.md R145). -/
def Obligations.DecimalAdjust : Prop :=
  ∀ s : State, ∃ (t : State) (fixL fixH : Bool) (fix : Nat),
    RegisterOnly .daa [0x27#8] 1 [.a] s t ∧
    (fixL = true ↔ s.cpu.f.getLsbD 5 = true ∨ (s.cpu.f.getLsbD 6 = false ∧ s.cpu.a.toNat % 16 > 9)) ∧
    (fixH = true ↔ s.cpu.f.getLsbD 4 = true ∨ (s.cpu.f.getLsbD 6 = false ∧ s.cpu.a.toNat > 0x99)) ∧
    fix = (if fixH then 0x60 else 0) + (if fixL then 0x06 else 0) ∧
    t.cpu.a.toNat = (if s.cpu.f.getLsbD 6 then s.cpu.a.toNat + 256 - fix else s.cpu.a.toNat + fix) % 256 ∧
    FlagsAre t (t.cpu.a == 0#8) (s.cpu.f.getLsbD 6) false fixH

/-- Decimal arithmetic: after ADD of two packed decimal bytes DAA gives the packed sum with C the decimal carry, after SUB
the packed difference with C the decimal borrow. -/
def Obligations.DecimalArithmetic : Prop :=
  ∀ (x y : Nat) (s : State), x < 100 → y < 100 → s.cpu.a = packed x → ∃ t u t' u',
    (exec (.addAN8 (packed y)) s = .next t ∧ exec .daa t = .next u ∧ u.cpu.a = packed ((x + y) % 100) ∧
      u.cpu.f.getLsbD 4 = decide (100 ≤ x + y)) ∧
    (exec (.subAN8 (packed y)) s = .next t' ∧ exec .daa t' = .next u' ∧ u'.cpu.a = packed ((x + 100 - y) % 100) ∧
      u'.cpu.f.getLsbD 4 = decide (x < y))

/-- `CPL`, `SCF`, `CCF` (43_arith8.md R245, R246, R247). -/
def Obligations.FlagOperations : Prop :=
  ∀ s : State, ∃ t u w : State,
    (RegisterOnly .cpl [0x2F#8] 1 [.a] s t ∧ t.cpu.a.toNat = 255 - s.cpu.a.toNat ∧
      FlagsAre t (s.cpu.f.getLsbD 7) true true (s.cpu.f.getLsbD 4)) ∧
    (RegisterOnly .scf [0x37#8] 1 [] s u ∧ FlagsAre u (s.cpu.f.getLsbD 7) false false true) ∧
    (RegisterOnly .ccf [0x3F#8] 1 [] s w ∧ FlagsAre w (s.cpu.f.getLsbD 7) false false (!s.cpu.f.getLsbD 4))

/-! # 16-bit arithmetic -/

/-- `ADD HL,rr` (44_arith16.md R250): Z unchanged, N cleared, H out of bit 11, C out of bit 15. -/
def Obligations.AddPairToHl : Prop :=
  ∀ (p : Pair) (s : State), ∃ (t : State) (h c : Bool),
    RegisterOnly (.addHlRr p) [0x09#8 + r16 p] 2 [.h, .l] s t ∧
    (hl s).toNat + (pairValue s p).toNat = (hl t).toNat + 0x10000 * c.toNat ∧
    (hl s).toNat % 0x1000 + (pairValue s p).toNat % 0x1000 = (hl t).toNat % 0x1000 + 0x1000 * h.toNat ∧
    FlagsAre t (s.cpu.f.getLsbD 7) false h c

/-- `INC rr` and `DEC rr` (44_arith16.md R252, R253): no flag is touched. -/
def Obligations.StepPair : Prop :=
  ∀ (p : Pair) (s : State), ∃ t u : State,
    (Runs (.incRr p) [0x03#8 + r16 p] 2 s t ∧ Outside s t ∧ RegsKept (pairRegs p) s t ∧ t.cpu.f = s.cpu.f ∧
      t.cpu.ime = s.cpu.ime ∧ (p ≠ .sp → t.cpu.sp = s.cpu.sp) ∧ pairValue t p = pairValue s p + 1#16) ∧
    (Runs (.decRr p) [0x0B#8 + r16 p] 2 s u ∧ Outside s u ∧ RegsKept (pairRegs p) s u ∧ u.cpu.f = s.cpu.f ∧
      u.cpu.ime = s.cpu.ime ∧ (p ≠ .sp → u.cpu.sp = s.cpu.sp) ∧ pairValue u p = pairValue s p - 1#16)

/-! # Rotates, shifts and bits -/

/-- `RLCA`, `RRCA`, `RLA`, `RRA` (45_rotate_shift_bit.md R255 to R258): the result of the same rotate as the prefixed form,
Z always 0. -/
def Obligations.AccumulatorRotates : Prop :=
  ∀ (k : Shift) (i : Instr) (byte : Byte) (s : State),
    (k, i, byte) ∈ [(Shift.rlc, Instr.rlca, 0x07#8), (.rrc, .rrca, 0x0F#8), (.rl, .rla, 0x17#8), (.rr, .rra, 0x1F#8)] →
    ∃ t, RegisterOnly i [byte] 1 [.a] s t ∧ t.cpu.a.toNat = k.result s.cpu.a.toNat (s.cpu.f.getLsbD 4).toNat ∧
      FlagsAre t false false false (k.out s.cpu.a)

/-- The eight prefixed rotates and shifts of a register (45_rotate_shift_bit.md R259, R261, R263, R265, R267, R269, R271,
R273). -/
def Obligations.ShiftRegister : Prop :=
  ∀ (k : Shift) (r : Reg8) (s : State), ∃ t,
    RegisterOnly (k.onReg r) [0xCB#8, 8#8 * k.code + r8 r] 2 [r] s t ∧
    (t.reg r).toNat = k.result (s.reg r).toNat (s.cpu.f.getLsbD 4).toNat ∧
    FlagsAre t (t.reg r == 0#8) false false (k.out (s.reg r))

/-- The eight prefixed rotates and shifts of `(HL)` (45_rotate_shift_bit.md R260, R262, R264, R266, R268, R270, R272,
R274): the result is stored to the address read, always. -/
def Obligations.ShiftMemory : Prop :=
  ∀ (k : Shift) (s : State), ∃ (t : State) (v : Byte),
    Runs k.onHl [0xCB#8, 8#8 * k.code + 6#8] 4 s t ∧
    v.toNat = k.result (busRead s (hl s)).toNat (s.cpu.f.getLsbD 4).toNat ∧ StoresByte (hl s) v [] s t ∧
    FlagsAre t (v == 0#8) false false (k.out (busRead s (hl s))) ∧ t.cpu.sp = s.cpu.sp ∧ t.cpu.ime = s.cpu.ime

/-- `BIT b,r` and `BIT b,(HL)` (45_rotate_shift_bit.md R275, R276): nothing but F is written. -/
def Obligations.BitTest : Prop :=
  ∀ (b : Fin 8) (r : Reg8) (s : State), ∃ t u : State,
    (RegisterOnly (.bitBR b r) [0xCB#8, 0x40#8 + field3 b + r8 r] 2 [] s t ∧
      FlagsAre t (!(s.reg r).getLsbD b.val) false true (s.cpu.f.getLsbD 4)) ∧
    (RegisterOnly (.bitBHl b) [0xCB#8, 0x46#8 + field3 b] 3 [] s u ∧
      FlagsAre u (!(busRead s (hl s)).getLsbD b.val) false true (s.cpu.f.getLsbD 4))

/-- `RES b,r` and `SET b,r` (45_rotate_shift_bit.md R277, R279): that bit and no other, no flag. -/
def Obligations.BitWriteRegister : Prop :=
  ∀ (x : Bool) (b : Fin 8) (r : Reg8) (s : State), ∃ t,
    RegisterOnly (if x then .setBR b r else .resBR b r) [0xCB#8, (if x then 0xC0#8 else 0x80#8) + field3 b + r8 r] 2 [r]
      s t ∧
    t.cpu.f = s.cpu.f ∧ ∀ j < 8, (t.reg r).getLsbD j = if j = b.val then x else (s.reg r).getLsbD j

/-- `RES b,(HL)` and `SET b,(HL)` (45_rotate_shift_bit.md R278, R280): the byte read with that bit written, stored to the
same address, always; no flag. -/
def Obligations.BitWriteMemory : Prop :=
  ∀ (x : Bool) (b : Fin 8) (s : State), ∃ (t : State) (v : Byte),
    Runs (if x then .setBHl b else .resBHl b) [0xCB#8, (if x then 0xC6#8 else 0x86#8) + field3 b] 4 s t ∧
    (∀ j < 8, v.getLsbD j = if j = b.val then x else (busRead s (hl s)).getLsbD j) ∧ StoresByte (hl s) v [] s t ∧
    t.cpu.f = s.cpu.f ∧ t.cpu.sp = s.cpu.sp ∧ t.cpu.ime = s.cpu.ime

/-! # Control transfer -/

/-- A transfer that changes PC and the watermark only. -/
def Sys2Proof.Spec.JumpsTo (i : Instr) (bytes : List Byte) (target : Word) (cost : Nat) (s : State) : Prop :=
  ∃ t, Goes i bytes target cost s t ∧ Outside s t ∧ RegsKept [] s t ∧ t.cpu.f = s.cpu.f ∧ t.cpu.sp = s.cpu.sp ∧
    t.cpu.ime = s.cpu.ime

/-- `JP n16`, `JP HL`, `JR e8` (46_control.md R281, R283, R284). -/
def Obligations.Jumps : Prop :=
  ∀ (w : Word) (e : Byte) (s : State),
    JumpsTo (.jpN16 w) [0xC3#8, lo w, hi w] w 4 s ∧
    JumpsTo .jpHl [0xE9#8] (hl s) 1 s ∧
    JumpsTo (.jrE8 e) [0x18#8, e] (s.cpu.pc + 2#16 + e.signExtend 16) 3 s

/-- `JP cc,n16` and `JR cc,e8` (46_control.md R282, R285), the condition of R292 holding and not. -/
def Obligations.ConditionalJumps : Prop :=
  ∀ (cond : Cond) (w : Word) (e : Byte) (s : State),
    (holds s cond →
      JumpsTo (.jpCcN16 cond w) [0xC2#8 + cc cond, lo w, hi w] w 4 s ∧
      JumpsTo (.jrCcE8 cond e) [0x20#8 + cc cond, e] (s.cpu.pc + 2#16 + e.signExtend 16) 3 s) ∧
    (¬holds s cond →
      JumpsTo (.jpCcN16 cond w) [0xC2#8 + cc cond, lo w, hi w] (s.cpu.pc + 3#16) 3 s ∧
      JumpsTo (.jrCcE8 cond e) [0x20#8 + cc cond, e] (s.cpu.pc + 2#16) 2 s)

/-- A call: the return address is pushed, then PC takes the target. -/
def Sys2Proof.Spec.CallsTo (i : Instr) (bytes : List Byte) (target back : Word) (cost : Nat) (s : State) : Prop :=
  ∃ t, Goes i bytes target cost s t ∧ Pushes back s t ∧ t.cpu.f = s.cpu.f ∧ t.cpu.ime = s.cpu.ime

/-- `CALL n16`, `CALL cc,n16`, `RST t` (46_control.md R286, R287, R290); a call not taken touches neither SP nor memory. -/
def Obligations.Calls : Prop :=
  ∀ (cond : Cond) (w : Word) (k : Fin 8) (s : State),
    CallsTo (.callN16 w) [0xCD#8, lo w, hi w] w (s.cpu.pc + 3#16) 6 s ∧
    CallsTo (.rstT k) [0xC7#8 + field3 k] (BitVec.ofNat 16 (8 * k.val)) (s.cpu.pc + 1#16) 4 s ∧
    (holds s cond → CallsTo (.callCcN16 cond w) [0xC4#8 + cc cond, lo w, hi w] w (s.cpu.pc + 3#16) 6 s) ∧
    (¬holds s cond → JumpsTo (.callCcN16 cond w) [0xC4#8 + cc cond, lo w, hi w] (s.cpu.pc + 3#16) 3 s)

/-- A return: PC takes the stacked word, SP goes up by 2. -/
def Sys2Proof.Spec.Returns (i : Instr) (bytes : List Byte) (ime : Bool) (cost : Nat) (s : State) : Prop :=
  ∃ t, Goes i bytes (stacked s) cost s t ∧ Outside s t ∧ RegsKept [] s t ∧ t.cpu.f = s.cpu.f ∧
    t.cpu.sp = s.cpu.sp + 2#16 ∧ t.cpu.ime = ime

/-- `RET`, `RET cc`, `RETI` (46_control.md R288, R289, R291). -/
def Obligations.ReturnInstructions : Prop :=
  ∀ (cond : Cond) (s : State),
    Returns .ret [0xC9#8] s.cpu.ime 4 s ∧
    Returns .reti [0xD9#8] true 4 s ∧
    (holds s cond → Returns (.retCc cond) [0xC0#8 + cc cond] s.cpu.ime 5 s) ∧
    (¬holds s cond → JumpsTo (.retCc cond) [0xC0#8 + cc cond] (s.cpu.pc + 1#16) 2 s)

/-- With the stack in plain memory a PUSH and then a POP move the pushed pair's word into the popped pair and restore SP, into
AF without the low nibble; a CALL or RST and then a RET come back to the instruction after the call, with SP and every
register as before. -/
def Obligations.StackRoundTrips : Prop :=
  ∀ (p q : StackPair) (w : Word) (k : Fin 8) (s : State), s.storageWf = true → s.plainRam (s.cpu.sp - 2#16) = true →
    s.plainRam (s.cpu.sp - 1#16) = true →
    (∃ t u,
      exec (.pushRr p) s = .next t ∧ exec (.popRr q) t = .next u ∧ u.cpu.sp = s.cpu.sp ∧
      stackPairValue u q = if q = .af then stackPairValue s p &&& 0xFFF0#16 else stackPairValue s p) ∧
    (∃ t u, exec (.callN16 w) s = .next t ∧ t.cpu.pc = w ∧ exec .ret t = .next u ∧ u.cpu.pc = s.cpu.pc + 3#16 ∧
      u.cpu.sp = s.cpu.sp ∧ RegsKept [] s u ∧ u.cpu.f = s.cpu.f) ∧
    (∃ t u, exec (.rstT k) s = .next t ∧ t.cpu.pc = BitVec.ofNat 16 (8 * k.val) ∧ exec .ret t = .next u ∧
      u.cpu.pc = s.cpu.pc + 1#16 ∧ u.cpu.sp = s.cpu.sp ∧ RegsKept [] s u ∧ u.cpu.f = s.cpu.f)

/-! # System instructions -/

/-- `NOP`, `DI`, `EI` (47_system.md R300, R303, R304), and `HALT` (R301): PC past it, the watermark INF. -/
def Obligations.NopDiEiHalt : Prop :=
  ∀ s : State,
    JumpsTo .nop [0x00#8] (s.cpu.pc + 1#16) 1 s ∧
    (∀ (x : Bool), ∃ t,
      Runs (if x then .ei else .di) [if x then 0xFB#8 else 0xF3#8] 1 s t ∧ Outside s t ∧ RegsKept [] s t ∧
      t.cpu.f = s.cpu.f ∧ t.cpu.sp = s.cpu.sp ∧ t.cpu.ime = x) ∧
    (encode .halt = [0x76#8] ∧ ∃ t,
      exec .halt s = .next t ∧ t.cpu.pc = s.cpu.pc + 1#16 ∧ t.cpu.next = none ∧ Outside s t ∧ RegsKept [] s t ∧
      t.cpu.f = s.cpu.f ∧ t.cpu.sp = s.cpu.sp ∧ t.cpu.ime = s.cpu.ime)

/-- `STOP` and the eleven unassigned bytes (47_system.md R302, R305): the Fatal is recorded and nothing else changes. -/
def Obligations.StopAndIllegalOpcodes : Prop :=
  ∀ (s : State) (n n' : Byte),
    (decodeBytes 0x10#8 n n' = .stop ∧ exec .stop s = .next { s with fatal := some .stop }) ∧
    ∀ x ∈ unassigned,
      decodeBytes x.1 n n' = x.2 ∧ encode x.2 = [x.1] ∧
      exec x.2 s = .next { s with fatal := some (.illegalOpcode x.1) }

/-- The prefix marker (47_system.md R306): the pair it begins is one instruction, that of the byte after it; `PREFIX` itself
never is a decoded instruction. -/
def Obligations.PrefixSelectsSecondTable : Prop :=
  (∀ (b n : Byte), decodeBytes 0xCB#8 b n = decodePrefixed b ∧ (decodePrefixed b).length = 2 ∧
    encode (decodePrefixed b) = [0xCB#8, b]) ∧
  (∀ b0 b1 b2 : Byte, decodeBytes b0 b1 b2 ≠ .pfx) ∧
  ∀ s : State, ∃ t, exec .pfx s = .next t ∧ exec (decodePrefixed (busRead s (s.cpu.pc + 1#16))) s = .next t

/-! # Decoding -/

/-- Words written out from the encodings of the rules decode to the instructions they stand for. -/
def Obligations.WordsDecode : Prop :=
  decodeBytes 0b01111000#8 0#8 0#8 = .ldRR .a .b ∧
  decodeBytes 0b00110110#8 0xFF#8 0#8 = .ldHlN8 0xFF#8 ∧
  decodeBytes 0b00110001#8 0xFE#8 0xFF#8 = .ldRrN16 .sp 0xFFFE#16 ∧
  decodeBytes 0b11110101#8 0#8 0#8 = .pushRr .af ∧
  decodeBytes 0b10001010#8 0#8 0#8 = .adcAR .d ∧
  decodeBytes 0b11111110#8 0x3C#8 0#8 = .cpAN8 0x3C#8 ∧
  decodeBytes 0b00101001#8 0#8 0#8 = .addHlRr .hl ∧
  decodeBytes 0b00011111#8 0#8 0#8 = .rra ∧
  decodeBytes 0b11001011#8 0b01100101#8 0#8 = .bitBR 4 .l ∧
  decodeBytes 0b11001011#8 0b11001011#8 0#8 = .setBR 1 .e ∧
  decodeBytes 0b11011100#8 0x00#8 0x02#8 = .callCcN16 .c 0x0200#16 ∧
  decodeBytes 0b00100000#8 0xFB#8 0#8 = .jrCcE8 .nz 0xFB#8 ∧
  decodeBytes 0b01110110#8 0#8 0#8 = .halt

/-- Decoding the bytes of a well-formed instruction gives it back, every operand at every value, and leaves the bytes after
it. -/
def Obligations.DecodeOfEncode : Prop :=
  ∀ (i : Instr) (rest : List Byte), i.wellFormed = true → decode (encode i ++ rest) = .ok (i, rest)

/-- Every byte sequence is an instruction, well formed, and encoding it gives its bytes back; STOP apart, whose second byte
has no meaning. -/
def Obligations.EncodeOfDecode : Prop :=
  ∀ b0 b1 b2 : Byte,
    (decodeBytes b0 b1 b2).wellFormed = true ∧
    (b0 ≠ 0x10#8 → encode (decodeBytes b0 b1 b2) = [b0, b1, b2].take (decodeBytes b0 b1 b2).length)

/-- The length is told from the first byte alone, is 1, 2 or 3, and is the number of bytes of the encoding (30_encoding.md
R114). -/
def Obligations.LengthFromFirstByte : Prop :=
  (∀ b0 b1 b2 n1 n2 : Byte,
    (decodeBytes b0 b1 b2).length = (decodeBytes b0 n1 n2).length ∧ 1 ≤ (decodeBytes b0 b1 b2).length ∧
    (decodeBytes b0 b1 b2).length ≤ 3 ∧ (b0 = 0xCB#8 → (decodeBytes b0 b1 b2).length = 2)) ∧
  ∀ i : Instr, i.wellFormed = true → (encode i).length = i.length

/-! # The tick -/

/-- A tick at which the CPU is not idle and services nothing runs the instruction that the bytes at PC decode to
(30_encoding.md R111, R113; 60_exceptions.md R429). -/
def Obligations.StepRunsDecodedInstruction : Prop :=
  ∀ (s : State) (i : Instr) (rest : List Byte), s.Running → (atCpu s).cpu.next = some s.now →
    ((atCpu s).cpu.ime = false ∨ (atCpu s).cpu.ie &&& (atCpu s).cpu.ifReg = 0#8) →
    decode (bytesAtPc (atCpu s)) = .ok (i, rest) → i.wellFormed = true →
    (∀ t, exec i (atCpu s) = .next t → step s = .next (ended t)) ∧
    (∀ r, exec i (atCpu s) = .fault r → step s = .fault r) ∧
    (∀ r, exec i (atCpu s) = .refused r → step s = .refused r)

/-- A tick at which the CPU is idle or halted changes what the host's events and the devices change, and `now`; a halted CPU
stays halted exactly while no enabled interrupt is pending (60_exceptions.md R428, R429). -/
def Obligations.IdleTick : Prop :=
  ∀ s : State, s.Running → (atCpu s).cpu.next ≠ some s.now →
    step s = .next { lcdTick (timerTick (deliverHostEvents s)) with now := s.now + 1 } ∧
    (s.Halted →
      (lcdTick (timerTick (deliverHostEvents s))).cpu.ie &&& (lcdTick (timerTick (deliverHostEvents s))).cpu.ifReg = 0#8)

/-- Service of the lowest pending interrupt i below 5 (60_exceptions.md R429, R430, R431): its IF bit is cleared, PC is
pushed, IME is cleared, PC is at 0x40 + 8 i, five cycles are charged, and no register and no flag changes. -/
def Obligations.StepServicesInterrupt : Prop :=
  ∀ (s : State) (i : Nat), s.Running → (atCpu s).cpu.next = some s.now → (atCpu s).cpu.ime = true → i < 5 →
    ((atCpu s).cpu.ie &&& (atCpu s).cpu.ifReg).getLsbD i = true →
    (∀ j < i, ((atCpu s).cpu.ie &&& (atCpu s).cpu.ifReg).getLsbD j = false) →
    ∃ (t cleared : State),
      (∀ j < 8, cleared.cpu.ifReg.getLsbD j = ((atCpu s).cpu.ifReg.getLsbD j && decide (j ≠ i))) ∧
      cleared = { atCpu s with cpu := { (atCpu s).cpu with ifReg := cleared.cpu.ifReg } } ∧
      step s = .next { t with now := s.now + 1 } ∧
      Pushes (atCpu s).cpu.pc cleared t ∧ t.cpu.f = (atCpu s).cpu.f ∧ t.cpu.ime = false ∧
      t.cpu.pc = BitVec.ofNat 16 (0x40 + 8 * i) ∧ t.cpu.next = some (s.now + 5)

/-- Pending interrupts with no index below 5 are fatal at service (60_exceptions.md R445, R440): `fatal` names the lowest,
the devices' ticks stand, `now` stays and nothing else changes. -/
def Obligations.BadInterruptIndexIsFatal : Prop :=
  ∀ (s : State) (i : Nat), s.Running → (atCpu s).cpu.next = some s.now → (atCpu s).cpu.ime = true → 5 ≤ i → i < 8 →
    ((atCpu s).cpu.ie &&& (atCpu s).cpu.ifReg).getLsbD i = true →
    (∀ j < i, ((atCpu s).cpu.ie &&& (atCpu s).cpu.ifReg).getLsbD j = false) →
    step s = .next { atCpu s with fatal := some (.badInterruptIndex i) }

/-- No instruction traps (60_exceptions.md R420), and time goes on by one cycle a tick but for a Fatal, which leaves the CPU
and `now` as they were (R440); a machine that met a Fatal has no further tick (10_state.md R58). -/
def Obligations.TimeAndFatal : Prop :=
  (∀ (i : Instr) (s : State), ∃ t, exec i s = .next t ∧ t.now = s.now) ∧
  (∀ s : State, s.Running → ∃ t, step s = .next t ∧
    ((t.fatal = none ∧ t.now = s.now + 1) ∨ (t.fatal ≠ none ∧ t = { atCpu s with fatal := t.fatal }))) ∧
  ∀ (s : State) (k : FatalKind), s.fatal = some k → step s = .fault (.stopped k)

/-- Delivering the host's events of a cycle (60_exceptions.md R427; that they are a list of cycles and indices is the model's
choice, log 5): bit i of IF is set when it was or an event (now, i) is listed, and nothing else changes. -/
def Obligations.HostEventsDelivered : Prop :=
  ∀ s : State,
    deliverHostEvents s = { s with cpu := { s.cpu with ifReg := (deliverHostEvents s).cpu.ifReg } } ∧
    ∀ i : Nat, i < 8 →
      ((deliverHostEvents s).cpu.ifReg.getLsbD i = true ↔
        s.cpu.ifReg.getLsbD i = true ∨ ∃ k : Fin 5, k.val = i ∧ (s.now, k) ∈ s.hostEvents)

/-! # Reset and invariants -/

/-- The reset state (10_state.md R60; 70_reset_and_hazards.md R461) and the start state `post_boot` (R462), each with the
default platform (20_memory.md R90); every byte of HRAM, VRAM, OAM and the work RAM reads 0x00. The parameters of a run
replace the platform and the events of either, and nothing else of it (00_scope.md R8). The form of the two parameters is the
model's choice (logs 4 and 5). -/
def Obligations.ResetState : Prop :=
  (∀ r : Reg8, State.reset.reg r = 0#8) ∧ State.reset.cpu.f = 0#8 ∧ State.reset.cpu.pc = 0#16 ∧
  State.reset.cpu.sp = 0#16 ∧ State.reset.cpu.ime = false ∧ State.reset.cpu.ifReg = 0#8 ∧ State.reset.cpu.ie = 0#8 ∧
  State.reset.cpu.next = some 0 ∧ State.reset.timer = ⟨0#16, 0#8, 0#8, 0#8⟩ ∧
  (∀ a : Word, 0xFF40 ≤ a.toNat → a.toNat ≤ 0xFF4B → busRead State.reset a = 0#8) ∧
  (∀ a : Word, State.reset.plainRam a = true → busRead State.reset a = 0#8) ∧
  State.reset.lcd.dmaSrc = 0#8 ∧ State.reset.lcd.dmaIdx = 0xA0 ∧ State.reset.lcd.onCycle = 0 ∧
  State.reset.lcd.winLine = 0 ∧ State.reset.lcd.next = none ∧
  State.reset.lcd.frameCur = List.replicate 144 (List.replicate 160 0#2) ∧
  State.reset.lcd.frameNext = List.replicate 144 none ∧ State.reset.now = 0 ∧ State.reset.fatal = none ∧
  State.reset.platform = [.cartridge, .workRam] ∧ State.reset.hostEvents = [] ∧
  (∀ (platform : List PlatformComponent) (events : List (Nat × Fin 5)),
    State.start .reset platform events [] = { State.reset with platform := platform, hostEvents := events } ∧
    State.start .postBoot platform events [] = { State.postBoot with platform := platform, hostEvents := events }) ∧
  State.postBoot =
    { State.reset with
      cpu :=
        { State.reset.cpu with
          a := 0x01#8, f := 0xB0#8, c := 0x13#8, e := 0xD8#8, h := 0x01#8, l := 0x4D#8, sp := 0xFFFE#16,
          pc := 0x0100#16, ifReg := 0x01#8 }
      timer := { State.reset.timer with counter := 0xABCC#16 }
      lcd := { State.reset.lcd with lcdc := 0x91#8, bgp := 0xFC#8, obp0 := 0xFF#8, obp1 := 0xFF#8 } }

/-- The invariants hold at reset and at `post_boot`. -/
def Obligations.ResetHasInvariants : Prop :=
  State.reset.Inv ∧ State.reset.ScheduleInv ∧ State.postBoot.Inv ∧ State.postBoot.ScheduleInv

/-- Every tick keeps the invariant. -/
def Obligations.StepKeepsInvariant : Prop := ∀ s t : State, s.Inv → step s = .next t → t.Inv

/-- Every tick that raises no Fatal keeps the display on its schedule (49_display.md R344, R368), whatever program runs:
LY, the mode field and the watermark are functions of the time since power-up, and every line composited so far is in the
frame builder. -/
def Obligations.StepKeepsDisplaySchedule : Prop :=
  ∀ s t : State, s.ScheduleInv → step s = .next t → t.fatal = none → t.ScheduleInv

/-- The cartridge's image is the one a run starts with, and no tick changes a byte of it, or of a read-only memory, or the
attached list; where the cartridge is the first component that may answer, a bus read gives its byte (20_memory.md R90, R83;
10_state.md R59). Two things are the model's choice and no rule of the spec: that a byte past the end of the image given is
0x00, in the first clause (log 3, DESIGN CHOICE; R90's `rom` has all 32768 bytes), and the read-only memory, a component kind of
the model (log 4, DESIGN CHOICE). -/
def Obligations.RomNeverChanges : Prop :=
  (∀ (launch : LaunchState) (platform : List PlatformComponent) (events : List (Nat × Fin 5)) (image : List Byte) (a : Nat),
    a ≤ 0x7FFF → (State.start launch platform events image).mem.read a = image[a]?.getD 0#8) ∧
  ∀ s t : State, step s = .next t →
    t.platform.map PlatformComponent.kind = s.platform.map PlatformComponent.kind ∧
    (∀ (first last : Nat) (cells : Memory),
      .memory first last false cells ∈ s.platform → .memory first last false cells ∈ t.platform) ∧
    ∀ a : Word, a.toNat ≤ 0x7FFF →
      t.mem.read a.toNat = s.mem.read a.toNat ∧
      (s.server a = some .cartridge → busRead s a = s.mem.read a.toNat ∧ busRead t a = busRead s a)

/-- What the host's events, the Timer and the Display Controller do in a tick, whatever the state (70_reset_and_hazards.md
R476): of the CPU they change IF only, and only set bits 4..0 of it; no register that a program writes changes but TIMA, LY
and STAT; of the storage, OAM only. -/
def Obligations.DevicesOwnTheirState : Prop :=
  ∀ s t : State, t = lcdTick (timerTick (deliverHostEvents s)) →
    t.cpu = { s.cpu with ifReg := t.cpu.ifReg } ∧
    (∀ i < 8, s.cpu.ifReg.getLsbD i = true → t.cpu.ifReg.getLsbD i = true) ∧
    (∀ i < 8, 5 ≤ i → t.cpu.ifReg.getLsbD i = s.cpu.ifReg.getLsbD i) ∧
    t.timer.tma = s.timer.tma ∧ t.timer.tac = s.timer.tac ∧ t.timer.counter = s.timer.counter + 4#16 ∧
    t.lcd.lcdc = s.lcd.lcdc ∧ t.lcd.scy = s.lcd.scy ∧ t.lcd.scx = s.lcd.scx ∧ t.lcd.lyc = s.lcd.lyc ∧
    t.lcd.dma = s.lcd.dma ∧ t.lcd.bgp = s.lcd.bgp ∧ t.lcd.obp0 = s.lcd.obp0 ∧ t.lcd.obp1 = s.lcd.obp1 ∧
    t.lcd.wy = s.lcd.wy ∧ t.lcd.wx = s.lcd.wx ∧
    (∀ i < 8, 3 ≤ i → t.lcd.stat.getLsbD i = s.lcd.stat.getLsbD i) ∧
    StorageKept s t ∧ t.platform = s.platform ∧ t.hostEvents = s.hostEvents ∧ t.now = s.now ∧ t.fatal = s.fatal

/-! # The bus -/

/-- What a bus read answers at every address (20_memory.md R73, R75, R76, R77, R84): the core's storage and registers first,
then the platform in attachment order, then the open bus; what each kind of component answers, and the map of the default
platform (R85, R90). The kinds are the model's choice (log 4). -/
def Obligations.BusReadMap : Prop :=
  ∀ (s : State) (a : Word),
    (coreStorage a → busRead s a = s.mem.read a.toNat) ∧
    (platformAddress a → busRead s a = (s.platform.findSome? (platformRead s a)).getD 0xFF#8) ∧
    platformRead s a .cartridge = (if a.toNat ≤ 0x7FFF then some (s.mem.read a.toNat) else none) ∧
    platformRead s a .workRam =
      (if 0xC000 ≤ a.toNat ∧ a.toNat ≤ 0xDFFF then some (s.mem.read a.toNat)
       else if 0xE000 ≤ a.toNat ∧ a.toNat ≤ 0xFDFF then some (s.mem.read (a.toNat - 0x2000))
       else none) ∧
    (∀ (first last : Nat) (writable : Bool) (cells : Memory),
      platformRead s a (.memory first last writable cells) =
        if first ≤ a.toNat ∧ a.toNat ≤ last then some (cells.read a.toNat) else none) ∧
    (∀ number own : Nat, platformRead s a (.external number own) = Config.externalRead number own s.now a) ∧
    (s.platform = [.cartridge, .workRam] →
      (a.toNat ≤ 0x7FFF ∨ (0xC000 ≤ a.toNat ∧ a.toNat ≤ 0xDFFF) → busRead s a = s.mem.read a.toNat) ∧
      (0xE000 ≤ a.toNat ∧ a.toNat ≤ 0xFDFF → busRead s a = busRead s (a - 0x2000#16)) ∧
      (0x7FFF < a.toNat → droppedByDefault a → busRead s a = 0xFF#8)) ∧
    busRead s 0xFF04#16 = hi s.timer.counter ∧ busRead s 0xFF05#16 = s.timer.tima ∧
    busRead s 0xFF06#16 = s.timer.tma ∧ busRead s 0xFF07#16 = s.timer.tac ∧ busRead s 0xFF0F#16 = s.cpu.ifReg ∧
    busRead s 0xFFFF#16 = s.cpu.ie ∧ busRead s 0xFF40#16 = s.lcd.lcdc ∧ busRead s 0xFF41#16 = s.lcd.stat ∧
    busRead s 0xFF42#16 = s.lcd.scy ∧ busRead s 0xFF43#16 = s.lcd.scx ∧ busRead s 0xFF44#16 = s.lcd.ly ∧
    busRead s 0xFF45#16 = s.lcd.lyc ∧ busRead s 0xFF46#16 = s.lcd.dma ∧ busRead s 0xFF47#16 = s.lcd.bgp ∧
    busRead s 0xFF48#16 = s.lcd.obp0 ∧ busRead s 0xFF49#16 = s.lcd.obp1 ∧ busRead s 0xFF4A#16 = s.lcd.wy ∧
    busRead s 0xFF4B#16 = s.lcd.wx

/-- What the platform does with a write (20_memory.md R74, R90, R91): each component in attachment order, the cartridge nothing,
the work RAM its byte at either window, a memory its byte in its window when it is writable, a component specified only at its
boundary its own state and the interrupts it requests. The kinds are the model's choice (log 4). -/
def Sys2Proof.Spec.DeliveredInOrder (s : State) (a : Word) (v : Byte) : Prop :=
  ∀ rest : List PlatformComponent,
    (s.platform = [] → platformWrite a v s = s) ∧
    (s.platform = .cartridge :: rest →
      platformWrite a v s = attachedBefore .cartridge (platformWrite a v { s with platform := rest })) ∧
    (s.platform = .workRam :: rest →
      platformWrite a v s =
        attachedBefore .workRam
          (platformWrite a v
            { s with
              platform := rest
              mem :=
                if 0xC000 ≤ a.toNat ∧ a.toNat ≤ 0xDFFF then s.mem.write a.toNat v
                else if 0xE000 ≤ a.toNat ∧ a.toNat ≤ 0xFDFF then s.mem.write (a.toNat - 0x2000) v
                else s.mem })) ∧
    (∀ (first last : Nat) (writable : Bool) (cells : Memory), s.platform = .memory first last writable cells :: rest →
      platformWrite a v s =
        attachedBefore
          (.memory first last writable
            (if writable = true ∧ first ≤ a.toNat ∧ a.toNat ≤ last then cells.write a.toNat v else cells))
          (platformWrite a v { s with platform := rest })) ∧
    ∀ number own : Nat, s.platform = .external number own :: rest → ∃ flags : Byte,
      (∀ i < 8, flags.getLsbD i = true ↔
        s.cpu.ifReg.getLsbD i = true ∨ ∃ k ∈ (Config.externalWrite number own s.now a v).2, k.val = i) ∧
      platformWrite a v s =
        attachedBefore (.external number (Config.externalWrite number own s.now a v).1)
          (platformWrite a v { s with platform := rest, cpu := { s.cpu with ifReg := flags } })

/-- What a bus write does at every address (20_memory.md R74, R83, R85): a byte that the store does not touch reads as before;
plain memory and its mirror read the byte back; the core's storage and IF and IE store the byte, and every component of the
platform gets the write, in attachment order; what no component decodes, and ROM, drop it. The component kinds are the model's
choice (log 4). -/
def Obligations.BusWriteStores : Prop :=
  ∀ (s : State) (a : Word) (v : Byte),
    (∀ b : Word, s.touches a b = false → busRead (busWrite s a v) b = busRead s b) ∧
    (s.plainRam a = true → s.storageWf = true → busRead (busWrite s a v) a = v) ∧
    (s.server a = some .workRam → s.mem.wf = true →
      ∀ b : Word, s.server b = some .workRam → mirrors a b = true → busRead (busWrite s a v) b = v) ∧
    (coreStorage a → busWrite s a v = platformWrite a v { s with mem := s.mem.write a.toNat v }) ∧
    busWrite s 0xFF0F#16 v = platformWrite 0xFF0F#16 v { s with cpu := { s.cpu with ifReg := v } } ∧
    busWrite s 0xFFFF#16 v = platformWrite 0xFFFF#16 v { s with cpu := { s.cpu with ie := v } } ∧
    (platformAddress a → busWrite s a v = platformWrite a v s) ∧
    ((∀ c ∈ s.platform, c.mayAnswer a = false) → platformWrite a v s = s) ∧
    (s.platform = [.cartridge, .workRam] → droppedByDefault a → busWrite s a v = s) ∧
    DeliveredInOrder s a v

/-! # The Timer -/

/-- A tick of the Timer (48_timer.md R320 to R325): the counter goes up by 4, and TIMA by one exactly on a falling edge of
the enabled, selected bit; at overflow TIMA takes TMA and interrupt 2 is requested. Writes to its registers (R327 to R330):
DIV clears the whole counter whatever the value, TAC is stored, both with the edge rule at once; TIMA and TMA are stored. The
platform gets each write after the Timer (20_memory.md R74); the default platform does nothing at these addresses. -/
def Obligations.TimerTickAndWrites : Prop :=
  ∀ (s : State) (v : Byte),
    timerTick s = afterEdge s s.timer.tac (s.timer.counter + 4#16) ∧
    busWrite s 0xFF04#16 v = platformWrite 0xFF04#16 v (afterEdge s s.timer.tac 0#16) ∧
    busWrite s 0xFF07#16 v = platformWrite 0xFF07#16 v (afterEdge s v s.timer.counter) ∧
    busWrite s 0xFF05#16 v = platformWrite 0xFF05#16 v { s with timer := { s.timer with tima := v } } ∧
    busWrite s 0xFF06#16 v = platformWrite 0xFF06#16 v { s with timer := { s.timer with tma := v } } ∧
    ∀ a : Word, coreRegister a → s.platform = [.cartridge, .workRam] → platformWrite a v s = s

/-- Over any number of ticks the enabled Timer counts the periods of its selected bit (48_timer.md R321): TIMA has grown by
the number of multiples of the period that the counter has passed, as long as that does not overflow it, and the counter by
4 a tick. -/
def Obligations.TimaCountsPeriods : Prop :=
  ∀ (n : Nat) (s : State) (period : Nat), s.timer.tac.getLsbD 2 = true →
    period = 2 ^ (selectedBit s.timer.tac + 1) →
    s.timer.tima.toNat +
      ((s.timer.counter.toNat + 4 * n) / period - s.timer.counter.toNat / period) ≤ 255 →
    (timerTick^[n] s).timer.tima.toNat =
      s.timer.tima.toNat + ((s.timer.counter.toNat + 4 * n) / period - s.timer.counter.toNat / period) ∧
    (timerTick^[n] s).timer.counter = s.timer.counter + BitVec.ofNat 16 (4 * n) ∧
    (timerTick^[n] s).cpu.ifReg = s.cpu.ifReg

/-! # The Display Controller -/

/-- Writes to the display's registers (49_display.md R352 to R357): plain registers store; LCDC stores and powers down on a
1 to 0 change of bit 7 (R364); STAT stores bits 7..3; LY is ignored; LYC stores and compares (R359); DMA starts the copy. The
platform gets each write after the display (20_memory.md R74). -/
def Obligations.DisplayWrites : Prop :=
  ∀ (s : State) (v : Byte),
    busWrite s 0xFF42#16 v = platformWrite 0xFF42#16 v { s with lcd := { s.lcd with scy := v } } ∧
    busWrite s 0xFF43#16 v = platformWrite 0xFF43#16 v { s with lcd := { s.lcd with scx := v } } ∧
    busWrite s 0xFF47#16 v = platformWrite 0xFF47#16 v { s with lcd := { s.lcd with bgp := v } } ∧
    busWrite s 0xFF48#16 v = platformWrite 0xFF48#16 v { s with lcd := { s.lcd with obp0 := v } } ∧
    busWrite s 0xFF49#16 v = platformWrite 0xFF49#16 v { s with lcd := { s.lcd with obp1 := v } } ∧
    busWrite s 0xFF4A#16 v = platformWrite 0xFF4A#16 v { s with lcd := { s.lcd with wy := v } } ∧
    busWrite s 0xFF4B#16 v = platformWrite 0xFF4B#16 v { s with lcd := { s.lcd with wx := v } } ∧
    busWrite s 0xFF41#16 v =
      platformWrite 0xFF41#16 v { s with lcd := { s.lcd with stat := (v &&& 0xF8#8) ||| (s.lcd.stat &&& 0x07#8) } } ∧
    busWrite s 0xFF44#16 v = platformWrite 0xFF44#16 v s ∧
    busWrite s 0xFF45#16 v = platformWrite 0xFF45#16 v (compared { s with lcd := { s.lcd with lyc := v } }) ∧
    busWrite s 0xFF46#16 v =
      platformWrite 0xFF46#16 v { s with lcd := { s.lcd with dma := v, dmaSrc := v, dmaIdx := 0 } } ∧
    (¬(s.lcd.lcdc.getLsbD 7 = true ∧ v.getLsbD 7 = false) →
      busWrite s 0xFF40#16 v = platformWrite 0xFF40#16 v { s with lcd := { s.lcd with lcdc := v } }) ∧
    (s.lcd.lcdc.getLsbD 7 = true → v.getLsbD 7 = false →
      busWrite s 0xFF40#16 v =
        platformWrite 0xFF40#16 v
          { compared { s with lcd := { s.lcd with lcdc := v, stat := s.lcd.stat &&& 0xFC#8, ly := 0#8 } } with
            lcd :=
              { (compared { s with lcd := { s.lcd with lcdc := v, stat := s.lcd.stat &&& 0xFC#8, ly := 0#8 } }).lcd with
                next := none } })

/-- The mode sequencer at its watermark (49_display.md R361, R362, R366), by line and position; it acts at no other tick
(R360). -/
def Obligations.SequencerStep : Prop :=
  (∀ s : State, s.lcd.next ≠ some s.now → lcdSequence s = s) ∧
  ∀ (s : State) (line pos : Nat), s.lcd.next = some s.now → s.lcd.onCycle ≤ s.now →
    line = (s.now - s.lcd.onCycle) % 17556 / 114 → pos = (s.now - s.lcd.onCycle) % 17556 % 114 →
    (line = 0 → pos = 0 →
      lcdSequence s =
        lcdWait 20 (entered 2#8 (some 5) (compared
          { s with lcd := { s.lcd with ly := 0#8, winLine := 0, frameNext := List.replicate 144 none } }))) ∧
    (0 < line → line < 144 → pos = 0 →
      lcdSequence s =
        lcdWait 20 (entered 2#8 (some 5) (compared { s with lcd := { s.lcd with ly := BitVec.ofNat 8 line } }))) ∧
    (line < 144 → pos = 20 →
      lcdSequence s =
        lcdWait 43
          { entered 3#8 none s with
            lcd :=
              { (entered 3#8 none s).lcd with
                frameNext := s.lcd.frameNext.set line (some (composeLine s.lcd s.mem line))
                winLine := winLineAfter s.lcd line } }) ∧
    (line < 144 → pos = 63 → lcdSequence s = lcdWait 51 (entered 0#8 (some 3) s)) ∧
    (line = 144 → pos = 0 →
      lcdSequence s =
        lcdWait 114
          { entered 1#8 (some 4) (compared { s with lcd := { s.lcd with ly := 144#8 } }) with
            cpu :=
              { (entered 1#8 (some 4) (compared { s with lcd := { s.lcd with ly := 144#8 } })).cpu with
                ifReg :=
                  (entered 1#8 (some 4) (compared { s with lcd := { s.lcd with ly := 144#8 } })).cpu.ifReg ||| 1#8 }
            lcd :=
              { (entered 1#8 (some 4) (compared { s with lcd := { s.lcd with ly := 144#8 } })).lcd with
                frameCur := s.lcd.frameNext.map (fun slot => slot.getD (List.replicate 160 0#2)) } }) ∧
    (144 < line → pos = 0 →
      lcdSequence s = lcdWait 114 (compared { s with lcd := { s.lcd with ly := BitVec.ofNat 8 line } }))

/-- The display's hook is the power-up test, the DMA engine and the sequencer, in that order (49_display.md R360). Power-up
(R365): a tick that finds the display off with LCDC[7] = 1 re-bases the schedule at that tick and starts line 0 in it; of a
display that stays off only the DMA engine runs. -/
def Obligations.PowerUp : Prop :=
  (∀ s : State, lcdTick s = lcdSequence (dmaStep (powered s))) ∧
  ∀ s : State, s.lcd.next = none →
    (s.lcd.lcdc.getLsbD 7 = true →
      (lcdTick s).lcd.onCycle = s.now ∧ (lcdTick s).lcd.next = some (s.now + 20) ∧ (lcdTick s).lcd.ly = 0#8 ∧
      (lcdTick s).lcd.stat.extractLsb' 0 2 = 2#2 ∧ (lcdTick s).lcd.winLine = 0 ∧
      (lcdTick s).lcd.frameNext = List.replicate 144 none ∧ (lcdTick s).lcd.frameCur = s.lcd.frameCur ∧
      (lcdTick s).mem = (dmaStep s).mem) ∧
    (s.lcd.lcdc.getLsbD 7 = false → lcdTick s = dmaStep s)

/-- The sprite DMA engine (49_display.md R363, 20_memory.md R95): one byte a tick from the bus into OAM at the cursor, and
nothing else, until 0xA0 bytes are copied; then nothing. -/
def Obligations.DmaCopiesOneByte : Prop :=
  ∀ s : State,
    (s.lcd.dmaIdx < 0xA0 → s.mem.wf = true →
      busRead (dmaStep s) (0xFE00#16 + BitVec.ofNat 16 s.lcd.dmaIdx) =
        busRead s (joinBytes s.lcd.dmaSrc (BitVec.ofNat 8 s.lcd.dmaIdx)) ∧
      (∀ a : Word, a ≠ 0xFE00#16 + BitVec.ofNat 16 s.lcd.dmaIdx → busRead (dmaStep s) a = busRead s a) ∧
      dmaStep s = { s with mem := (dmaStep s).mem, lcd := { s.lcd with dmaIdx := s.lcd.dmaIdx + 1 } }) ∧
    (0xA0 ≤ s.lcd.dmaIdx → dmaStep s = s)

/-- The sprites of a line are, by their indices in OAM, the first 10 that meet it, none when the layer is off (49_display.md
R379), and they are sorted by the pair (X, index) (R381). -/
def Obligations.SpriteOrder : Prop :=
  ∀ (r : Lcd) (m : Memory) (ly : Nat), ∃ sel sorted : List Nat,
    selectSprites r m ly = sel.map (oamEntry m) ∧ sortSprites (selectSprites r m ly) = sorted.map (oamEntry m) ∧
    sel.Pairwise (· < ·) ∧ sel.length ≤ 10 ∧ (∀ k ∈ sel, k < 40 ∧ meetsLine r m ly k) ∧
    (r.lcdc.getLsbD 1 = false → sel = []) ∧
    (r.lcdc.getLsbD 1 = true → ∀ k < 40, meetsLine r m ly k → k ∉ sel → sel.length = 10 ∧ ∀ j ∈ sel, j < k) ∧
    sorted.Perm sel ∧
    sorted.Pairwise (fun j k =>
      (oamEntry m j).x.toNat < (oamEntry m k).x.toNat ∨ ((oamEntry m j).x = (oamEntry m k).x ∧ j < k))

/-- The bit-plane algebra composes the same line as the pixel rules, and breaks no contract of its containers (49_display.md
R395, R396; that a contract violation is an answer of the algebra is read from the spec by inference, log 13). -/
def Obligations.PlanesComposeTheSameLine : Prop :=
  ∀ (r : Lcd) (m : Memory) (ly : Nat), composeLinePlanes r m ly = .ok (composeLine r m ly)

/-! # The ALU's laws -/

/-- The laws of 40_alu.md R157: the sum modulo 256 and its Z, C of a subtraction, a byte less itself, addition as subtraction
of the complement with the carries inverted, the rotates inverse to one another, and nine turns of the 9-bit rotate and two
swaps the identity. -/
def Obligations.AluLaws : Prop :=
  (∀ a b : Byte,
    (aluAdd a b false).value.toNat = (a.toNat + b.toNat) % 256 ∧
    (aluAdd a b false).flags.z = ((aluAdd a b false).value == 0#8) ∧
    (aluSub a b false).flags.c = decide (a.toNat < b.toNat) ∧
    aluSub a a false = ⟨0#8, ⟨true, true, false, false⟩⟩) ∧
  (∀ (a b : Byte) (c : Bool),
    (aluAdd a b c).value = (aluSub a (~~~b) (!c)).value ∧
    (aluAdd a b c).flags.c = !(aluSub a (~~~b) (!c)).flags.c ∧
    (aluAdd a b c).flags.h = !(aluSub a (~~~b) (!c)).flags.h) ∧
  ∀ (v : Byte) (c : Bool) (dir : Dir),
    (aluRotate .left (aluRotate .right v).value).value = v ∧
    (aluRotate .right (aluRotate .left v).value).value = v ∧
    (turn dir)^[9] (v, c) = (v, c) ∧ (aluSwap (aluSwap v).value).value = v
end

