-- ==== Sys2Proof/Laws/Memory.lean ====
section
/-! SUPPORT. The laws of the canonical memory list: read after write, the canonical form kept, and equality by contents. -/

namespace Sys2Proof.Machine

theorem Memory.read_consCell (a b : Nat) (v : Byte) (m : Memory) (h : a ≠ b ∨ Memory.read m b = Memory.unlisted) :
    Memory.read (Memory.consCell a v m) b = if a = b then v else Memory.read m b := by
  unfold Memory.consCell
  split
  · rename_i hv
    split
    · rename_i hab
      rcases h with h | h
      · exact absurd hab h
      · rw [h, hv]
    · rfl
  · rfl

/-- Below the first address a canonical list holds nothing. -/
theorem Memory.read_of_lt (m : Memory) (low b : Nat) (hm : Memory.wfFrom low m = true) (hb : b < low) :
    Memory.read m b = Memory.unlisted := by
  induction m generalizing low with
  | nil => rfl
  | cons cell rest ih =>
    obtain ⟨k, w⟩ := cell
    simp only [Memory.wfFrom, Bool.and_eq_true, decide_eq_true_eq] at hm
    obtain ⟨⟨hk, -⟩, hr⟩ := hm
    simp only [Memory.read]
    rw [if_neg (by omega)]
    exact ih (k + 1) hr (by omega)

/-- A canonical list from a bound is one from every lower bound. -/
theorem Memory.wfFrom_mono (m : Memory) (low low' : Nat) (h : low' ≤ low) (hm : Memory.wfFrom low m = true) :
    Memory.wfFrom low' m = true := by
  cases m with
  | nil => rfl
  | cons cell rest =>
    obtain ⟨k, w⟩ := cell
    simp only [Memory.wfFrom, Bool.and_eq_true, decide_eq_true_eq] at hm ⊢
    exact ⟨⟨by omega, hm.1.2⟩, hm.2⟩

theorem Memory.wfFrom_consCell (a low : Nat) (v : Byte) (m : Memory) (h : low ≤ a)
    (hm : Memory.wfFrom (a + 1) m = true) : Memory.wfFrom low (Memory.consCell a v m) = true := by
  unfold Memory.consCell
  split
  · exact Memory.wfFrom_mono m (a + 1) low (by omega) hm
  · rename_i hv
    simp [Memory.wfFrom, h, hv, hm]

/-- A write keeps the canonical form. -/
theorem Memory.wfFrom_write (m : Memory) (low a : Nat) (v : Byte) (h : low ≤ a) (hm : Memory.wfFrom low m = true) :
    Memory.wfFrom low (Memory.write m a v) = true := by
  induction m generalizing low with
  | nil => exact Memory.wfFrom_consCell a low v [] h rfl
  | cons cell rest ih =>
    obtain ⟨k, w⟩ := cell
    have hm' := hm
    simp only [Memory.wfFrom, Bool.and_eq_true, decide_eq_true_eq] at hm'
    obtain ⟨⟨hk, hw⟩, hr⟩ := hm'
    simp only [Memory.write]
    split
    · rename_i hak
      apply Memory.wfFrom_consCell a low v _ h
      simp only [Memory.wfFrom, Bool.and_eq_true, decide_eq_true_eq]
      exact ⟨⟨by omega, hw⟩, hr⟩
    · split
      · rename_i hak
        subst hak
        exact Memory.wfFrom_consCell a low v _ h hr
      · simp only [Memory.wfFrom, Bool.and_eq_true, decide_eq_true_eq]
        exact ⟨⟨hk, hw⟩, ih (k + 1) (by omega) hr⟩

/-- A write keeps the canonical form. -/
theorem Memory.wf_write (m : Memory) (a : Nat) (v : Byte) (hm : m.wf = true) : (m.write a v).wf = true :=
  Memory.wfFrom_write m 0 a v (Nat.zero_le a) hm

/-- Read after write, on a canonical list. -/
theorem Memory.read_write (m : Memory) (low a b : Nat) (v : Byte) (hm : Memory.wfFrom low m = true) :
    Memory.read (Memory.write m a v) b = if a = b then v else Memory.read m b := by
  induction m generalizing low with
  | nil => exact Memory.read_consCell a b v [] (.inr rfl)
  | cons cell rest ih =>
    obtain ⟨k, w⟩ := cell
    have hm' := hm
    simp only [Memory.wfFrom, Bool.and_eq_true, decide_eq_true_eq] at hm'
    obtain ⟨⟨hk, hw⟩, hr⟩ := hm'
    simp only [Memory.write]
    split
    · rename_i hak
      apply Memory.read_consCell
      by_cases hab : a = b
      · refine .inr (Memory.read_of_lt _ k b ?_ (by omega))
        simp only [Memory.wfFrom, Bool.and_eq_true, decide_eq_true_eq]
        exact ⟨⟨Nat.le_refl k, hw⟩, hr⟩
      · exact .inl hab
    · split
      · rename_i hak
        subst hak
        rw [Memory.read_consCell]
        · simp only [Memory.read]
          split <;> rfl
        · by_cases hab : a = b
          · exact .inr (Memory.read_of_lt rest (a + 1) b hr (by omega))
          · exact .inl hab
      · rename_i h1 h2
        simp only [Memory.read]
        rw [ih (k + 1) hr]
        by_cases hkb : k = b
        · rw [if_pos hkb, if_pos hkb, if_neg (by omega)]
        · rw [if_neg hkb, if_neg hkb]

/-- A read of another address is as before a write, on every list. -/
theorem Memory.read_write_ne (m : Memory) (a b : Nat) (v : Byte) (h : a ≠ b) :
    Memory.read (Memory.write m a v) b = Memory.read m b := by
  induction m with
  | nil =>
    show Memory.read (Memory.consCell a v []) b = _
    rw [Memory.read_consCell a b v [] (.inl h), if_neg h]
  | cons cell rest ih =>
    obtain ⟨k, w⟩ := cell
    simp only [Memory.write]
    split
    · rw [Memory.read_consCell _ _ _ _ (.inl h), if_neg h]
    · split
      · rename_i hak
        rw [Memory.read_consCell _ _ _ _ (.inl h), if_neg h]
        simp only [Memory.read]
        rw [if_neg (by omega)]
      · simp only [Memory.read, ih]

/-- A read of the written address gives the written byte, on a canonical list. -/
theorem Memory.read_write_self (m : Memory) (a : Nat) (v : Byte) (hm : m.wf = true) :
    Memory.read (Memory.write m a v) a = v := by
  rw [Memory.read_write m 0 a a v hm, if_pos rfl]

theorem Memory.all_consCell (q : Host.Cell → Bool) (m : Memory) (a : Nat) (v : Byte) (ha : q (a, v) = true)
    (hm : m.all q = true) : (Memory.consCell a v m).all q = true := by
  unfold Memory.consCell
  split
  · exact hm
  · rw [List.all_cons, ha, hm]
    rfl

/-- What holds of every listed cell, and of the written one, holds of every cell after a write. -/
theorem Memory.all_write (q : Host.Cell → Bool) (m : Memory) (a : Nat) (v : Byte) (ha : q (a, v) = true)
    (hm : m.all q = true) : (m.write a v).all q = true := by
  induction m with
  | nil => exact Memory.all_consCell q [] a v ha rfl
  | cons cell rest ih =>
    obtain ⟨k, w⟩ := cell
    have hm' := hm
    rw [List.all_cons, Bool.and_eq_true] at hm'
    simp only [Memory.write]
    split
    · exact Memory.all_consCell q _ a v ha hm
    · split
      · exact Memory.all_consCell q _ a v ha hm'.2
      · rw [List.all_cons, Bool.and_eq_true]
        exact ⟨hm'.1, ih hm'.2⟩

/-- A write at an address that storage backs lists cells of storage only. -/
theorem Memory.onStorage_write (m : Memory) (a : Nat) (v : Byte) (ha : isStorage a = true)
    (hm : m.onStorage = true) : (m.write a v).onStorage = true :=
  Memory.all_write (fun cell => isStorage cell.1) m a v ha hm

/-- Two canonical lists with equal contents are one list. -/
theorem Memory.ext_of_read (m m' : Memory) (low : Nat) (hm : Memory.wfFrom low m = true)
    (hm' : Memory.wfFrom low m' = true) (h : ∀ a, m.read a = m'.read a) : m = m' := by
  induction m generalizing low m' with
  | nil =>
    cases m' with
    | nil => rfl
    | cons cell rest =>
      obtain ⟨k, w⟩ := cell
      simp only [Memory.wfFrom, Bool.and_eq_true, decide_eq_true_eq] at hm'
      have hk := h k
      simp only [Memory.read, if_pos] at hk
      exact absurd hk.symm hm'.1.2
  | cons cell rest ih =>
    obtain ⟨k, w⟩ := cell
    have h1 := hm
    simp only [Memory.wfFrom, Bool.and_eq_true, decide_eq_true_eq] at h1
    cases m' with
    | nil =>
      have hk := h k
      simp only [Memory.read, if_pos] at hk
      exact absurd hk h1.1.2
    | cons cell' rest' =>
      obtain ⟨k', w'⟩ := cell'
      have h2 := hm'
      simp only [Memory.wfFrom, Bool.and_eq_true, decide_eq_true_eq] at h2
      have hkk : k = k' := by
        rcases Nat.lt_trichotomy k k' with hlt | heq | hgt
        · have hk := h k
          simp only [Memory.read, if_pos] at hk
          rw [if_neg (by omega), Memory.read_of_lt rest' (k' + 1) k h2.2 (by omega)] at hk
          exact absurd hk h1.1.2
        · exact heq
        · have hk := h k'
          simp only [Memory.read, if_pos] at hk
          rw [if_neg (by omega), Memory.read_of_lt rest (k + 1) k' h1.2 (by omega)] at hk
          exact absurd hk.symm h2.1.2
      subst hkk
      have hw := h k
      simp only [Memory.read, if_pos] at hw
      have hrest : rest = rest' := by
        apply ih rest' (k + 1) h1.2 h2.2
        intro a
        by_cases hak : k = a
        · rw [Memory.read_of_lt rest (k + 1) a h1.2 (by omega), Memory.read_of_lt rest' (k + 1) a h2.2 (by omega)]
        · have ha := h a
          simp only [Memory.read, if_neg hak] at ha
          exact ha
      rw [hw, hrest]

end Sys2Proof.Machine
end

