-- ==== Sys2Proof/Laws/Bus.lean ====
section
/-! SUPPORT. What a bus read answers in each region of the map, and everything a bus write can change. -/

namespace Sys2Proof.Machine

/-! ## Reads -/

/-- The bus read as one chain over the units of the core and then the platform. -/
theorem busRead_chain (s : State) (a : Word) :
    busRead s a =
      ((((cpuRead s a).or (timerRead s a)).or (lcdRead s a)).or (s.platform.findSome? (platformRead s a))).getD
        Config.openBus := by
  unfold busRead State.components
  simp only [List.cons_append, List.nil_append, List.findSome?, componentRead, List.findSome?_map]
  rcases cpuRead s a with _ | _ <;> rcases timerRead s a with _ | _ <;> rcases lcdRead s a with _ | _ <;> rfl

theorem inWindow_iff (first last : Nat) (a : Word) :
    inWindow first last a = true ↔ first ≤ a.toNat ∧ a.toNat ≤ last := by simp [inWindow]

theorem inWindow_false (first last : Nat) (a : Word) (h : ¬(first ≤ a.toNat ∧ a.toNat ≤ last)) :
    inWindow first last a = false := by simp only [inWindow, decide_eq_false_iff_not]; exact h

theorem word_ne_of_toNat (a b : Word) (h : a.toNat ≠ b.toNat) : ¬a = b := fun e => h (e ▸ rfl)

/-- The CPU answers outside its three places with NO_DATA. -/
theorem cpuRead_none (s : State) (a : Word) (h : a.toNat < 0xFF80) (h' : a.toNat ≠ 0xFF0F) : cpuRead s a = none := by
  unfold cpuRead
  rw [if_neg (by rw [inWindow_iff]; omega), if_neg (word_ne_of_toNat _ _ h'),
    if_neg (word_ne_of_toNat _ _ (by show a.toNat ≠ 0xFFFF; omega))]

/-- The Timer answers outside its four registers with NO_DATA. -/
theorem timerRead_none (s : State) (a : Word) (h : a.toNat < 0xFF04 ∨ 0xFF07 < a.toNat) : timerRead s a = none := by
  unfold timerRead
  rw [if_neg (word_ne_of_toNat _ _ (by show a.toNat ≠ 0xFF04; omega)),
    if_neg (word_ne_of_toNat _ _ (by show a.toNat ≠ 0xFF05; omega)),
    if_neg (word_ne_of_toNat _ _ (by show a.toNat ≠ 0xFF06; omega)),
    if_neg (word_ne_of_toNat _ _ (by show a.toNat ≠ 0xFF07; omega))]

/-- The Display Controller answers outside VRAM, OAM and its register bank with NO_DATA. -/
theorem lcdRead_none (s : State) (a : Word) (h1 : a.toNat < 0x8000 ∨ 0x9FFF < a.toNat)
    (h2 : a.toNat < 0xFE00 ∨ 0xFE9F < a.toNat) (h3 : a.toNat < 0xFF40 ∨ 0xFF4B < a.toNat) : lcdRead s a = none := by
  unfold lcdRead lcdDecodesRam
  rw [inWindow_false _ _ _ (by omega), inWindow_false _ _ _ (by omega), inWindow_false _ _ _ (by omega)]
  rfl

/-- VRAM and OAM. -/
theorem lcdRead_ram (s : State) (a : Word) (h : (0x8000 ≤ a.toNat ∧ a.toNat ≤ 0x9FFF) ∨ (0xFE00 ≤ a.toNat ∧ a.toNat ≤ 0xFE9F)) :
    lcdRead s a = some (s.mem.read a.toNat) := by
  unfold lcdRead lcdDecodesRam
  rcases h with h | h
  · rw [(inWindow_iff 0x8000 0x9FFF a).2 h]; rfl
  · rw [(inWindow_iff 0xFE00 0xFE9F a).2 h, Bool.or_true]; rfl

theorem workRamCell_none (a : Word) (h : a.toNat < 0xC000 ∨ 0xFDFF < a.toNat) : workRamCell a = none := by
  unfold workRamCell
  rw [inWindow_false _ _ _ (by omega), inWindow_false _ _ _ (by omega)]
  rfl

theorem workRamCell_direct (a : Word) (h : 0xC000 ≤ a.toNat ∧ a.toNat ≤ 0xDFFF) : workRamCell a = some a.toNat := by
  unfold workRamCell
  rw [(inWindow_iff _ _ _).2 h]
  rfl

theorem workRamCell_echo (a : Word) (h : 0xE000 ≤ a.toNat ∧ a.toNat ≤ 0xFDFF) :
    workRamCell a = some (a.toNat - 0x2000) := by
  unfold workRamCell
  rw [inWindow_false _ _ _ (by omega), (inWindow_iff _ _ _).2 h]
  rfl

/-- The cell of the work RAM lies in its direct window. -/
theorem workRamCell_range (a : Word) (k : Nat) (h : workRamCell a = some k) : 0xC000 ≤ k ∧ k ≤ 0xDFFF := by
  unfold workRamCell at h
  split at h
  · rename_i hw
    rw [inWindow_iff] at hw
    obtain rfl := Option.some.inj h
    exact hw
  · split at h
    · rename_i hw
      rw [inWindow_iff] at hw
      obtain rfl := Option.some.inj h
      omega
    · cases h

theorem isStorage_iff (a : Nat) :
    isStorage a = true ↔
      a ≤ 0x9FFF ∨ (0xC000 ≤ a ∧ a ≤ 0xDFFF) ∨ (0xFE00 ≤ a ∧ a ≤ 0xFE9F) ∨ (0xFF80 ≤ a ∧ a ≤ 0xFFFE) := by
  simp [isStorage]

/-- The addresses that a unit of the core decodes. -/
theorem coreDecodes_iff (a : Word) :
    coreDecodes a = true ↔
      (0x8000 ≤ a.toNat ∧ a.toNat ≤ 0x9FFF) ∨ (0xFE00 ≤ a.toNat ∧ a.toNat ≤ 0xFE9F) ∨ (0xFF04 ≤ a.toNat ∧ a.toNat ≤ 0xFF07) ∨
      a.toNat = 0xFF0F ∨ (0xFF40 ≤ a.toNat ∧ a.toNat ≤ 0xFF4B) ∨ 0xFF80 ≤ a.toNat := by
  have hlt := a.isLt
  have e : a = 0xFF0F#16 ↔ a.toNat = 0xFF0F := ⟨fun h => h ▸ rfl, fun h => BitVec.eq_of_toNat_eq h⟩
  simp only [coreDecodes, lcdDecodesRam, Bool.or_eq_true, inWindow_iff, beq_iff_eq, e]
  omega

/-- The storage of the core. -/
theorem coreRam_iff (a : Word) :
    coreRam a = true ↔
      (0x8000 ≤ a.toNat ∧ a.toNat ≤ 0x9FFF) ∨ (0xFE00 ≤ a.toNat ∧ a.toNat ≤ 0xFE9F) ∨
      (0xFF80 ≤ a.toNat ∧ a.toNat ≤ 0xFFFE) := by
  simp only [coreRam, lcdDecodesRam, Bool.or_eq_true, inWindow_iff, or_assoc]

/-- What the core decodes is its storage, a register of the CPU or of the Timer, or a register of the display's bank. -/
theorem core_cases (a : Word) (h : coreDecodes a = true) :
    coreRam a = true ∨
    (a = 0xFF0F#16 ∨ a = 0xFFFF#16 ∨ a = 0xFF04#16 ∨ a = 0xFF05#16 ∨ a = 0xFF06#16 ∨ a = 0xFF07#16) ∨
    (0xFF40 ≤ a.toNat ∧ a.toNat ≤ 0xFF4B) := by
  rw [coreDecodes_iff] at h
  rw [coreRam_iff]
  have hlt := a.isLt
  have e : ∀ b : Word, a.toNat = b.toNat → a = b := fun b h => BitVec.eq_of_toNat_eq h
  have h1 := e 0xFF0F#16
  have h2 := e 0xFFFF#16
  have h3 := e 0xFF04#16
  have h4 := e 0xFF05#16
  have h5 := e 0xFF06#16
  have h6 := e 0xFF07#16
  simp only [BitVec.toNat_ofNat] at h1 h2 h3 h4 h5 h6
  by_cases g : a.toNat = 0xFF0F ∨ a.toNat = 0xFFFF ∨ (0xFF04 ≤ a.toNat ∧ a.toNat ≤ 0xFF07)
  · refine .inr (.inl ?_)
    rcases g with g | g | g
    · exact .inl (h1 g)
    · exact .inr (.inl (h2 g))
    · rcases (by omega : a.toNat = 0xFF04 ∨ a.toNat = 0xFF05 ∨ a.toNat = 0xFF06 ∨ a.toNat = 0xFF07) with g | g | g | g
      · exact .inr (.inr (.inl (h3 g)))
      · exact .inr (.inr (.inr (.inl (h4 g))))
      · exact .inr (.inr (.inr (.inr (.inl (h5 g)))))
      · exact .inr (.inr (.inr (.inr (.inr (h6 g)))))
  · omega

/-- Where no unit of the core decodes, the platform answers, or the open bus. -/
theorem busRead_platform (s : State) (a : Word) (h : coreDecodes a = false) :
    busRead s a = (s.platform.findSome? (platformRead s a)).getD 0xFF#8 := by
  have hn : ¬coreDecodes a = true := by rw [h]; exact Bool.false_ne_true
  rw [coreDecodes_iff] at hn
  rw [busRead_chain, cpuRead_none s a (by omega) (by omega), timerRead_none s a (by omega),
    lcdRead_none s a (by omega) (by omega) (by omega)]
  rfl

/-- A bus read of the core's storage. -/
theorem busRead_coreRam (s : State) (a : Word) (h : coreRam a = true) : busRead s a = s.mem.read a.toNat := by
  rw [coreRam_iff] at h
  rw [busRead_chain]
  by_cases hh : 0xFF80 ≤ a.toNat
  · have : cpuRead s a = some (s.mem.read a.toNat) := by
      unfold cpuRead
      rw [(inWindow_iff _ _ _).2 (by omega)]
      rfl
    rw [this]
    rfl
  · rw [cpuRead_none s a (by omega) (by omega), timerRead_none s a (by omega), lcdRead_ram s a (by omega)]
    rfl

/-- A bus read with the default platform, outside the core. -/
theorem busRead_default (s : State) (a : Word) (hp : s.platform = defaultPlatform) (h : coreDecodes a = false) :
    busRead s a =
      ((if inWindow 0x0000 0x7FFF a then some (s.mem.read a.toNat) else none).or ((workRamCell a).map s.mem.read)).getD
        0xFF#8 := by
  rw [busRead_platform s a h, hp]
  simp only [defaultPlatform, List.findSome?, platformRead]
  split <;> cases (workRamCell a).map s.mem.read <;> simp_all

/-- With the default platform, a bus read of an address that storage backs. -/
theorem busRead_storage (s : State) (a : Word) (hp : s.platform = defaultPlatform) (h : isStorage a.toNat = true) :
    busRead s a = s.mem.read a.toNat := by
  rw [isStorage_iff] at h
  by_cases hc : coreDecodes a = true
  · exact busRead_coreRam s a (by rw [coreRam_iff]; rw [coreDecodes_iff] at hc; omega)
  · rw [busRead_default s a hp (Bool.eq_false_iff.2 hc)]
    rw [coreDecodes_iff] at hc
    by_cases hr : a.toNat ≤ 0x7FFF
    · rw [(inWindow_iff 0 0x7FFF a).2 (by omega)]
      rfl
    · rw [inWindow_false 0 0x7FFF a (by omega), workRamCell_direct a (by omega)]
      rfl

/-- With the default platform, a bus read in the echo of the work RAM. -/
theorem busRead_echo (s : State) (a : Word) (hp : s.platform = defaultPlatform)
    (h : 0xE000 ≤ a.toNat ∧ a.toNat ≤ 0xFDFF) : busRead s a = s.mem.read (a.toNat - 0x2000) := by
  rw [busRead_default s a hp (Bool.eq_false_iff.2 (by rw [Ne, coreDecodes_iff]; omega)),
    inWindow_false 0 0x7FFF a (by omega), workRamCell_echo a h]
  rfl

/-- With the default platform, a bus read of an address that nothing decodes. -/
theorem busRead_open (s : State) (a : Word) (hp : s.platform = defaultPlatform)
    (h : (0xA000 ≤ a.toNat ∧ a.toNat ≤ 0xBFFF) ∨ (0xFEA0 ≤ a.toNat ∧ a.toNat ≤ 0xFF03) ∨
      (0xFF08 ≤ a.toNat ∧ a.toNat ≤ 0xFF0E) ∨ (0xFF10 ≤ a.toNat ∧ a.toNat ≤ 0xFF3F) ∨
      (0xFF4C ≤ a.toNat ∧ a.toNat ≤ 0xFF7F)) : busRead s a = 0xFF#8 := by
  rw [busRead_default s a hp (Bool.eq_false_iff.2 (by rw [Ne, coreDecodes_iff]; omega)),
    inWindow_false 0 0x7FFF a (by omega), workRamCell_none a (by omega)]
  rfl

theorem busRead_if (s : State) : busRead s 0xFF0F#16 = s.cpu.ifReg := rfl
theorem busRead_ie (s : State) : busRead s 0xFFFF#16 = s.cpu.ie := rfl
theorem busRead_div (s : State) : busRead s 0xFF04#16 = hi s.timer.counter := rfl
theorem busRead_tima (s : State) : busRead s 0xFF05#16 = s.timer.tima := rfl
theorem busRead_tma (s : State) : busRead s 0xFF06#16 = s.timer.tma := rfl
theorem busRead_tac (s : State) : busRead s 0xFF07#16 = s.timer.tac := rfl
theorem busRead_lcdc (s : State) : busRead s 0xFF40#16 = s.lcd.lcdc := rfl
theorem busRead_stat (s : State) : busRead s 0xFF41#16 = s.lcd.stat := rfl
theorem busRead_scy (s : State) : busRead s 0xFF42#16 = s.lcd.scy := rfl
theorem busRead_scx (s : State) : busRead s 0xFF43#16 = s.lcd.scx := rfl
theorem busRead_ly (s : State) : busRead s 0xFF44#16 = s.lcd.ly := rfl
theorem busRead_lyc (s : State) : busRead s 0xFF45#16 = s.lcd.lyc := rfl
theorem busRead_dma (s : State) : busRead s 0xFF46#16 = s.lcd.dma := rfl
theorem busRead_bgp (s : State) : busRead s 0xFF47#16 = s.lcd.bgp := rfl
theorem busRead_obp0 (s : State) : busRead s 0xFF48#16 = s.lcd.obp0 := rfl
theorem busRead_obp1 (s : State) : busRead s 0xFF49#16 = s.lcd.obp1 := rfl
theorem busRead_wy (s : State) : busRead s 0xFF4A#16 = s.lcd.wy := rfl
theorem busRead_wx (s : State) : busRead s 0xFF4B#16 = s.lcd.wx := rfl

/-- What a platform component's answer depends on. -/
theorem platformRead_congr (s t : State) (hm : t.mem = s.mem) (hn : t.now = s.now) (a : Word) :
    platformRead t a = platformRead s a := by
  funext c
  cases c <;> simp only [platformRead, hm, hn]

/-- What a bus read depends on: the storage, the platform, the cycle, the two interrupt registers, the Timer and the Display
Controller. -/
theorem busRead_congr (s t : State) (hm : t.mem = s.mem) (hp : t.platform = s.platform) (hn : t.now = s.now)
    (hi : t.cpu.ifReg = s.cpu.ifReg) (he : t.cpu.ie = s.cpu.ie) (ht : t.timer = s.timer) (hl : t.lcd = s.lcd) (a : Word) :
    busRead t a = busRead s a := by
  rw [busRead_chain, busRead_chain, platformRead_congr s t hm hn, hp]
  simp only [cpuRead, timerRead, lcdRead, hm, hi, he, ht, hl]

/-! ## Writes -/

/-- Everything of the CPU but IF and IE is the same. -/
def SameCore (s t : State) : Prop := t.cpu = { s.cpu with ifReg := t.cpu.ifReg, ie := t.cpu.ie }

/-- The unit states that no bus write reaches are the same. -/
def SameGlobals (s t : State) : Prop := t.hostEvents = s.hostEvents ∧ t.now = s.now ∧ t.fatal = s.fatal

theorem SameCore.rfl' (s : State) : SameCore s s := rfl

theorem SameCore.trans {s t u : State} (h : SameCore s t) (h' : SameCore t u) : SameCore s u := by
  unfold SameCore at *
  rw [h', h]

/-- A register that is neither IF nor IE is the same. -/
theorem SameCore.field {s t : State} {β : Type} (h : SameCore s t) (g : Cpu → β)
    (hg : ∀ c i e, g { c with ifReg := i, ie := e } = g c) : g t.cpu = g s.cpu := by
  rw [h, hg]

theorem SameGlobals.rfl' (s : State) : SameGlobals s s := ⟨rfl, rfl, rfl⟩

theorem SameGlobals.trans {s t u : State} (h : SameGlobals s t) (h' : SameGlobals t u) : SameGlobals s u :=
  ⟨h'.1.trans h.1, h'.2.1.trans h.2.1, h'.2.2.trans h.2.2⟩

/-- Everything `RequestInterrupt` does. -/
theorem requestInterrupt_spec (i : Nat) (s : State) :
    requestInterrupt i s = { s with cpu := { s.cpu with ifReg := withBit s.cpu.ifReg i true } } := rfl

theorem requestInterrupt_core (i : Nat) (s : State) : SameCore s (requestInterrupt i s) := rfl

/-- Everything an edge-bracketed change of the Timer does. -/
theorem timerChange_spec (t : Timer) (s : State) :
    (timerChange t s = { s with timer := t }) ∨
    (t.tima = 0xFF#8 ∧
      timerChange t s =
        { s with timer := { t with tima := t.tma }, cpu := { s.cpu with ifReg := withBit s.cpu.ifReg 2 true } }) ∨
    (timerChange t s = { s with timer := { t with tima := t.tima + 1#8 } }) := by
  unfold timerChange incTima
  split
  · split
    · rename_i h
      exact .inr (.inl ⟨h, rfl⟩)
    · exact .inr (.inr rfl)
  · exact .inl rfl

theorem timerChange_core (t : Timer) (s : State) : SameCore s (timerChange t s) := by
  rcases timerChange_spec t s with h | ⟨-, h⟩ | h <;> rw [h] <;> rfl

theorem timerChange_rest (t : Timer) (s : State) :
    (timerChange t s).lcd = s.lcd ∧ (timerChange t s).mem = s.mem ∧ SameGlobals s (timerChange t s) := by
  rcases timerChange_spec t s with h | ⟨-, h⟩ | h <;> rw [h] <;> exact ⟨rfl, rfl, rfl, rfl, rfl⟩

theorem timerChange_platform (t : Timer) (s : State) : (timerChange t s).platform = s.platform := by
  rcases timerChange_spec t s with h | ⟨-, h⟩ | h <;> rw [h]

/-- A Timer write changes the Timer and IF only. -/
theorem timerWrite_spec (s : State) (a : Word) (v : Byte) :
    SameCore s (timerWrite s a v) ∧ (timerWrite s a v).lcd = s.lcd ∧ (timerWrite s a v).mem = s.mem ∧
      SameGlobals s (timerWrite s a v) := by
  unfold timerWrite
  split
  · exact ⟨timerChange_core _ _, timerChange_rest _ _⟩
  split
  · exact ⟨rfl, rfl, rfl, rfl, rfl, rfl⟩
  split
  · exact ⟨rfl, rfl, rfl, rfl, rfl, rfl⟩
  split
  · exact ⟨timerChange_core _ _, timerChange_rest _ _⟩
  · exact ⟨rfl, rfl, rfl, rfl, rfl, rfl⟩

/-- Everything the LY/LYC comparison does. -/
theorem lcdCompare_spec (s : State) :
    (s.lcd.ly = s.lcd.lyc ∧ s.lcd.stat.getLsbD 6 = true ∧
      lcdCompare s = requestInterrupt 1 { s with lcd := { s.lcd with stat := withBit s.lcd.stat 2 true } }) ∨
    (s.lcd.ly = s.lcd.lyc ∧ s.lcd.stat.getLsbD 6 = false ∧
      lcdCompare s = { s with lcd := { s.lcd with stat := withBit s.lcd.stat 2 true } }) ∨
    (s.lcd.ly ≠ s.lcd.lyc ∧ lcdCompare s = { s with lcd := { s.lcd with stat := withBit s.lcd.stat 2 false } }) := by
  unfold lcdCompare
  by_cases h : s.lcd.ly = s.lcd.lyc
  · rw [if_pos h]
    cases h6 : s.lcd.stat.getLsbD 6
    · exact .inr (.inl ⟨h, rfl, rfl⟩)
    · exact .inl ⟨h, rfl, rfl⟩
  · rw [if_neg h]
    exact .inr (.inr ⟨h, rfl⟩)

/-- The comparison changes STAT bit 2 and IF only. -/
theorem lcdCompare_frame (s : State) :
    SameCore s (lcdCompare s) ∧ (lcdCompare s).timer = s.timer ∧ (lcdCompare s).mem = s.mem ∧
      SameGlobals s (lcdCompare s) ∧ (lcdCompare s).lcd = { s.lcd with stat := (lcdCompare s).lcd.stat } := by
  rcases lcdCompare_spec s with ⟨-, -, h⟩ | ⟨-, -, h⟩ | ⟨-, h⟩ <;> rw [h] <;>
    exact ⟨rfl, rfl, rfl, ⟨rfl, rfl, rfl⟩, rfl⟩

/-- A write to the display's register bank changes the Display Controller and IF only. -/
theorem lcdRegWrite_frame (i : Nat) (v : Byte) (s : State) :
    SameCore s (lcdRegWrite i v s) ∧ (lcdRegWrite i v s).timer = s.timer ∧ (lcdRegWrite i v s).mem = s.mem ∧
      SameGlobals s (lcdRegWrite i v s) := by
  unfold lcdRegWrite
  split
  · unfold lcdWriteLcdc
    simp only
    split
    · unfold lcdPowerDown lcdSetLy
      simp only
      obtain ⟨h1, h2, h3, h4, -⟩ := lcdCompare_frame
        { s with lcd := { s.lcd with lcdc := v, stat := withMode s.lcd.stat 0#2, ly := 0#8 } }
      exact ⟨h1, h2, h3, h4⟩
    · exact ⟨rfl, rfl, rfl, rfl, rfl, rfl⟩
  all_goals first
    | exact ⟨rfl, rfl, rfl, rfl, rfl, rfl⟩
    | (obtain ⟨h1, h2, h3, h4, -⟩ := lcdCompare_frame { s with lcd := { s.lcd with lyc := v } }
       exact ⟨h1, h2, h3, h4⟩)

theorem lcdCompare_platform (s : State) : (lcdCompare s).platform = s.platform := by
  rcases lcdCompare_spec s with ⟨-, -, h⟩ | ⟨-, -, h⟩ | ⟨-, h⟩ <;> simp only [h, requestInterrupt_spec]

theorem lcdRegWrite_platform (i : Nat) (v : Byte) (s : State) : (lcdRegWrite i v s).platform = s.platform := by
  unfold lcdRegWrite
  split
  · unfold lcdWriteLcdc
    simp only
    split
    · exact lcdCompare_platform _
    · rfl
  all_goals first | rfl | exact lcdCompare_platform _

/-- A write to the Display Controller changes it, IF and the storage only. -/
theorem lcdWrite_frame (s : State) (a : Word) (v : Byte) :
    SameCore s (lcdWrite s a v) ∧ (lcdWrite s a v).timer = s.timer ∧ SameGlobals s (lcdWrite s a v) := by
  unfold lcdWrite
  split
  · exact ⟨rfl, rfl, rfl, rfl, rfl⟩
  split
  · obtain ⟨h1, h2, -, h4⟩ := lcdRegWrite_frame (a.toNat - 0xFF40) v s
    exact ⟨h1, h2, h4⟩
  · exact ⟨rfl, rfl, rfl, rfl, rfl⟩

theorem cpuWrite_frame (s : State) (a : Word) (v : Byte) :
    SameCore s (cpuWrite s a v) ∧ (cpuWrite s a v).timer = s.timer ∧ (cpuWrite s a v).lcd = s.lcd ∧
      SameGlobals s (cpuWrite s a v) := by
  unfold cpuWrite
  split
  · exact ⟨rfl, rfl, rfl, rfl, rfl, rfl⟩
  split
  · exact ⟨rfl, rfl, rfl, rfl, rfl, rfl⟩
  split
  · exact ⟨rfl, rfl, rfl, rfl, rfl, rfl⟩
  · exact ⟨rfl, rfl, rfl, rfl, rfl, rfl⟩

/-! ### The platform's part -/

/-- Interrupt requests change IF and nothing else. -/
theorem requestAll_spec (l : List (Fin 5)) (s : State) :
    requestAll l s = { s with cpu := { s.cpu with ifReg := (requestAll l s).cpu.ifReg } } := by
  induction l generalizing s with
  | nil => rfl
  | cons i l ih =>
    show requestAll l (requestInterrupt i.val s) = _
    rw [ih]
    rfl

/-- One component's write changes of the machine IF and the storage alone, and of the component its own state alone. -/
theorem componentWrite_frame (a : Word) (v : Byte) (s : State) (c : PlatformComponent) :
    (PlatformComponent.write a v s c).1.kind = c.kind ∧
    (PlatformComponent.write a v s c).2 =
      { s with
        mem := (PlatformComponent.write a v s c).2.mem
        cpu := { s.cpu with ifReg := (PlatformComponent.write a v s c).2.cpu.ifReg } } := by
  cases c with
  | cartridge => exact ⟨rfl, rfl⟩
  | workRam =>
    simp only [PlatformComponent.write]
    split <;> exact ⟨rfl, rfl⟩
  | memory first last writable cells => exact ⟨rfl, rfl⟩
  | external number own =>
    refine ⟨rfl, ?_⟩
    simp only [PlatformComponent.write]
    rw [requestAll_spec]

/-- The write of every component changes of the machine IF and the storage alone, and no component's kind. -/
theorem writeEach_frame (a : Word) (v : Byte) (l : List PlatformComponent) (s : State) :
    (writeEach a v l s).1.map PlatformComponent.kind = l.map PlatformComponent.kind ∧
    (writeEach a v l s).2 =
      { s with mem := (writeEach a v l s).2.mem, cpu := { s.cpu with ifReg := (writeEach a v l s).2.cpu.ifReg } } := by
  induction l generalizing s with
  | nil => exact ⟨rfl, rfl⟩
  | cons c l ih =>
    obtain ⟨k, e⟩ := componentWrite_frame a v s c
    obtain ⟨ks, es⟩ := ih (PlatformComponent.write a v s c).2
    refine ⟨?_, ?_⟩
    · show PlatformComponent.kind _ :: List.map PlatformComponent.kind _ = _
      rw [k, ks]
      rfl
    · show (writeEach a v l (PlatformComponent.write a v s c).2).2 = _
      rw [es]
      show _ = { s with
        mem := (writeEach a v l (PlatformComponent.write a v s c).2).2.mem
        cpu := { s.cpu with ifReg := (writeEach a v l (PlatformComponent.write a v s c).2).2.cpu.ifReg } }
      generalize (writeEach a v l (PlatformComponent.write a v s c).2).2.mem = m
      generalize (writeEach a v l (PlatformComponent.write a v s c).2).2.cpu.ifReg = f
      rw [e]

/-- The platform's part of a write changes the platform, the storage and IF alone. -/
theorem platformWrite_frame (a : Word) (v : Byte) (s : State) :
    platformWrite a v s =
      { s with
        mem := (platformWrite a v s).mem
        platform := (platformWrite a v s).platform
        cpu := { s.cpu with ifReg := (platformWrite a v s).cpu.ifReg } } := by
  have h := (writeEach_frame a v s.platform s).2
  unfold platformWrite
  simp only
  generalize (writeEach a v s.platform s).1 = l
  generalize (writeEach a v s.platform s).2 = t at h ⊢
  rw [h]

/-- The list of attached components is fixed. -/
theorem platformWrite_kinds (a : Word) (v : Byte) (s : State) :
    (platformWrite a v s).platform.map PlatformComponent.kind = s.platform.map PlatformComponent.kind :=
  (writeEach_frame a v s.platform s).1

theorem platformWrite_core (a : Word) (v : Byte) (s : State) : SameCore s (platformWrite a v s) := by
  unfold SameCore
  rw [platformWrite_frame]

theorem platformWrite_rest (a : Word) (v : Byte) (s : State) :
    (platformWrite a v s).timer = s.timer ∧ (platformWrite a v s).lcd = s.lcd ∧ SameGlobals s (platformWrite a v s) := by
  unfold SameGlobals
  rw [platformWrite_frame]
  exact ⟨rfl, rfl, rfl, rfl, rfl⟩

/-- A component's write does not look at the attached list. -/
theorem componentWrite_attached (a : Word) (v : Byte) (s : State) (c : PlatformComponent) (l : List PlatformComponent) :
    PlatformComponent.write a v { s with platform := l } c =
      ((PlatformComponent.write a v s c).1, { (PlatformComponent.write a v s c).2 with platform := l }) := by
  cases c with
  | cartridge => rfl
  | workRam =>
    simp only [PlatformComponent.write]
    split <;> rfl
  | memory first last writable cells => rfl
  | external number own =>
    simp only [PlatformComponent.write]
    congr 1
    generalize (Config.externalWrite number own s.now a v).2 = q
    induction q generalizing s with
    | nil => rfl
    | cons i q ih => exact ih (requestInterrupt i.val s)

/-- Nor does the write of every component. -/
theorem writeEach_attached (a : Word) (v : Byte) (l : List PlatformComponent) (s : State) (l' : List PlatformComponent) :
    writeEach a v l { s with platform := l' } = ((writeEach a v l s).1, { (writeEach a v l s).2 with platform := l' }) := by
  induction l generalizing s with
  | nil => rfl
  | cons c l ih =>
    simp only [writeEach]
    rw [componentWrite_attached]
    simp only
    rw [ih]

/-- The platform's part of a write, one component after another. -/
theorem platformWrite_cons (a : Word) (v : Byte) (s : State) (c : PlatformComponent) (rest : List PlatformComponent)
    (h : s.platform = c :: rest) :
    platformWrite a v s =
      { platformWrite a v { (PlatformComponent.write a v s c).2 with platform := rest } with
        platform :=
          (PlatformComponent.write a v s c).1 ::
            (platformWrite a v { (PlatformComponent.write a v s c).2 with platform := rest }).platform } := by
  simp only [platformWrite, h, writeEach, writeEach_attached]

/-- Without a platform a write does nothing there. -/
theorem platformWrite_nil (a : Word) (v : Byte) (s : State) (h : s.platform = []) : platformWrite a v s = s := by
  rcases s with ⟨cpu, timer, lcd, mem, platform, events, now, fatal⟩
  obtain rfl : platform = [] := h
  rfl

/-- A component whose window does not cover the address ignores the write. -/
theorem componentWrite_kept (a : Word) (v : Byte) (s : State) (c : PlatformComponent) (h : c.mayAnswer a = false) :
    PlatformComponent.write a v s c = (c, s) := by
  cases c with
  | cartridge => rfl
  | workRam =>
    simp only [PlatformComponent.mayAnswer, Option.isSome_eq_false_iff, Option.isNone_iff_eq_none] at h
    simp only [PlatformComponent.write, h]
  | memory first last writable cells =>
    simp only [PlatformComponent.mayAnswer] at h
    simp [PlatformComponent.write, h]
  | external number own => cases h

/-- Where no component's window covers the address, the platform ignores the write. -/
theorem platformWrite_kept (a : Word) (v : Byte) (s : State) (h : ∀ c ∈ s.platform, c.mayAnswer a = false) :
    platformWrite a v s = s := by
  have key : ∀ l : List PlatformComponent, (∀ c ∈ l, c.mayAnswer a = false) → writeEach a v l s = (l, s) := by
    intro l
    induction l with
    | nil => exact fun _ => rfl
    | cons c l ih =>
      intro h
      simp only [writeEach, componentWrite_kept a v s c (h c (List.mem_cons_self ..)),
        ih (fun d hd => h d (List.mem_cons_of_mem c hd))]
  simp only [platformWrite, key _ h]

/-- Where a component may answer is fixed at construction. -/
theorem mayAnswer_of_kind (a : Word) (c d : PlatformComponent) (h : c.kind = d.kind) : c.mayAnswer a = d.mayAnswer a := by
  cases c <;> cases d <;> simp_all [PlatformComponent.kind, PlatformComponent.mayAnswer]

/-- Whether a component is specified only at its boundary is fixed at construction. -/
theorem isExternal_of_kind (c d : PlatformComponent) (h : c.kind = d.kind) : c.isExternal = d.isExternal := by
  cases c <;> cases d <;> simp_all [PlatformComponent.kind, PlatformComponent.isExternal]

/-- With the default platform, the work RAM alone reacts. -/
theorem platformWrite_default (a : Word) (v : Byte) (s : State) (hp : s.platform = defaultPlatform) :
    platformWrite a v s =
      match workRamCell a with
      | some k => { s with mem := s.mem.write k v }
      | none => s := by
  rcases s with ⟨cpu, timer, lcd, mem, platform, events, now, fatal⟩
  obtain rfl : platform = defaultPlatform := hp
  simp only [platformWrite, defaultPlatform, writeEach, PlatformComponent.write]
  cases workRamCell a <;> rfl

/-! ### The whole write -/

/-- The bus write, unit after unit. -/
theorem busWrite_chain (s : State) (a : Word) (v : Byte) :
    busWrite s a v = platformWrite a v (lcdWrite (timerWrite (cpuWrite s a v) a v) a v) := rfl

/-- A bus write changes no register of the CPU but IF and IE, and none of the global state. -/
theorem busWrite_frame (s : State) (a : Word) (v : Byte) :
    SameCore s (busWrite s a v) ∧ SameGlobals s (busWrite s a v) := by
  rw [busWrite_chain]
  obtain ⟨c1, -, -, g1⟩ := cpuWrite_frame s a v
  obtain ⟨c2, -, -, g2⟩ := timerWrite_spec (cpuWrite s a v) a v
  obtain ⟨c3, -, g3⟩ := lcdWrite_frame (timerWrite (cpuWrite s a v) a v) a v
  have c4 := platformWrite_core a v (lcdWrite (timerWrite (cpuWrite s a v) a v) a v)
  have g4 := (platformWrite_rest a v (lcdWrite (timerWrite (cpuWrite s a v) a v) a v)).2.2
  exact ⟨((c1.trans c2).trans c3).trans c4, ((g1.trans g2).trans g3).trans g4⟩

section Fields

variable (s : State) (a : Word) (v : Byte)

@[simp] theorem busWrite_a : (busWrite s a v).cpu.a = s.cpu.a :=
  (busWrite_frame s a v).1.field Cpu.a (fun _ _ _ => rfl)
@[simp] theorem busWrite_f : (busWrite s a v).cpu.f = s.cpu.f :=
  (busWrite_frame s a v).1.field Cpu.f (fun _ _ _ => rfl)
@[simp] theorem busWrite_b : (busWrite s a v).cpu.b = s.cpu.b :=
  (busWrite_frame s a v).1.field Cpu.b (fun _ _ _ => rfl)
@[simp] theorem busWrite_c : (busWrite s a v).cpu.c = s.cpu.c :=
  (busWrite_frame s a v).1.field Cpu.c (fun _ _ _ => rfl)
@[simp] theorem busWrite_d : (busWrite s a v).cpu.d = s.cpu.d :=
  (busWrite_frame s a v).1.field Cpu.d (fun _ _ _ => rfl)
@[simp] theorem busWrite_e : (busWrite s a v).cpu.e = s.cpu.e :=
  (busWrite_frame s a v).1.field Cpu.e (fun _ _ _ => rfl)
@[simp] theorem busWrite_h : (busWrite s a v).cpu.h = s.cpu.h :=
  (busWrite_frame s a v).1.field Cpu.h (fun _ _ _ => rfl)
@[simp] theorem busWrite_l : (busWrite s a v).cpu.l = s.cpu.l :=
  (busWrite_frame s a v).1.field Cpu.l (fun _ _ _ => rfl)
@[simp] theorem busWrite_pc : (busWrite s a v).cpu.pc = s.cpu.pc :=
  (busWrite_frame s a v).1.field Cpu.pc (fun _ _ _ => rfl)
@[simp] theorem busWrite_sp : (busWrite s a v).cpu.sp = s.cpu.sp :=
  (busWrite_frame s a v).1.field Cpu.sp (fun _ _ _ => rfl)
@[simp] theorem busWrite_ime : (busWrite s a v).cpu.ime = s.cpu.ime :=
  (busWrite_frame s a v).1.field Cpu.ime (fun _ _ _ => rfl)
@[simp] theorem busWrite_next : (busWrite s a v).cpu.next = s.cpu.next :=
  (busWrite_frame s a v).1.field Cpu.next (fun _ _ _ => rfl)
@[simp] theorem busWrite_hostEvents : (busWrite s a v).hostEvents = s.hostEvents := (busWrite_frame s a v).2.1
@[simp] theorem busWrite_now : (busWrite s a v).now = s.now := (busWrite_frame s a v).2.2.1
@[simp] theorem busWrite_fatal : (busWrite s a v).fatal = s.fatal := (busWrite_frame s a v).2.2.2

end Fields

/-! What the units of the core do with a write. -/

theorem cpuWrite_none (s : State) (a : Word) (v : Byte) (h : a.toNat < 0xFF80) (h' : a.toNat ≠ 0xFF0F) :
    cpuWrite s a v = s := by
  unfold cpuWrite
  rw [if_neg (by rw [inWindow_iff]; omega), if_neg (word_ne_of_toNat _ _ h'),
    if_neg (word_ne_of_toNat _ _ (by show a.toNat ≠ 0xFFFF; omega))]

theorem timerWrite_none (s : State) (a : Word) (v : Byte) (h : a.toNat < 0xFF04 ∨ 0xFF07 < a.toNat) :
    timerWrite s a v = s := by
  unfold timerWrite
  rw [if_neg (word_ne_of_toNat _ _ (by show a.toNat ≠ 0xFF04; omega)),
    if_neg (word_ne_of_toNat _ _ (by show a.toNat ≠ 0xFF05; omega)),
    if_neg (word_ne_of_toNat _ _ (by show a.toNat ≠ 0xFF06; omega)),
    if_neg (word_ne_of_toNat _ _ (by show a.toNat ≠ 0xFF07; omega))]

theorem lcdWrite_none (s : State) (a : Word) (v : Byte) (h1 : a.toNat < 0x8000 ∨ 0x9FFF < a.toNat)
    (h2 : a.toNat < 0xFE00 ∨ 0xFE9F < a.toNat) (h3 : a.toNat < 0xFF40 ∨ 0xFF4B < a.toNat) : lcdWrite s a v = s := by
  unfold lcdWrite lcdDecodesRam
  rw [inWindow_false _ _ _ (by omega), inWindow_false _ _ _ (by omega), inWindow_false _ _ _ (by omega)]
  rfl

/-- Where no unit of the core decodes, a write is the platform's. -/
theorem busWrite_platform (s : State) (a : Word) (v : Byte) (h : coreDecodes a = false) :
    busWrite s a v = platformWrite a v s := by
  have hn : ¬coreDecodes a = true := by rw [h]; exact Bool.false_ne_true
  rw [coreDecodes_iff] at hn
  rw [busWrite_chain, cpuWrite_none s a v (by omega) (by omega), timerWrite_none s a v (by omega),
    lcdWrite_none s a v (by omega) (by omega) (by omega)]

/-- A write into the core's storage stores the byte, and the platform gets the write too. -/
theorem busWrite_coreRam (s : State) (a : Word) (v : Byte) (h : coreRam a = true) :
    busWrite s a v = platformWrite a v { s with mem := s.mem.write a.toNat v } := by
  rw [coreRam_iff] at h
  rw [busWrite_chain]
  by_cases hh : 0xFF80 ≤ a.toNat
  · have hc : cpuWrite s a v = { s with mem := s.mem.write a.toNat v } := by
      unfold cpuWrite
      rw [(inWindow_iff _ _ _).2 (by omega)]
      rfl
    rw [hc, timerWrite_none _ _ _ (by omega), lcdWrite_none _ _ _ (by omega) (by omega) (by omega)]
  · rw [cpuWrite_none s a v (by omega) (by omega), timerWrite_none _ _ _ (by omega)]
    have hl : lcdWrite s a v = { s with mem := s.mem.write a.toNat v } := by
      unfold lcdWrite lcdDecodesRam
      rcases (by omega : (0x8000 ≤ a.toNat ∧ a.toNat ≤ 0x9FFF) ∨ (0xFE00 ≤ a.toNat ∧ a.toNat ≤ 0xFE9F)) with g | g
      · rw [(inWindow_iff 0x8000 0x9FFF a).2 g]; rfl
      · rw [(inWindow_iff 0xFE00 0xFE9F a).2 g, Bool.or_true]; rfl
    rw [hl]

/-- With the default platform, a bus write into plain storage other than ROM stores the byte and does nothing else. -/
theorem busWrite_storage (s : State) (a : Word) (v : Byte) (hp : s.platform = defaultPlatform)
    (h : isStorage a.toNat = true) (h' : 0x8000 ≤ a.toNat) : busWrite s a v = { s with mem := s.mem.write a.toNat v } := by
  rw [isStorage_iff] at h
  by_cases hw : 0xC000 ≤ a.toNat ∧ a.toNat ≤ 0xDFFF
  · rw [busWrite_platform s a v (Bool.eq_false_iff.2 (by rw [Ne, coreDecodes_iff]; omega)), platformWrite_default a v s hp,
      workRamCell_direct a hw]
  · rw [busWrite_coreRam s a v (by rw [coreRam_iff]; omega), platformWrite_default a v { s with mem := s.mem.write a.toNat v } hp,
      workRamCell_none a (by omega)]

/-- With the default platform, a bus write in the echo stores in the work RAM. -/
theorem busWrite_echo (s : State) (a : Word) (v : Byte) (hp : s.platform = defaultPlatform)
    (h : 0xE000 ≤ a.toNat ∧ a.toNat ≤ 0xFDFF) : busWrite s a v = { s with mem := s.mem.write (a.toNat - 0x2000) v } := by
  rw [busWrite_platform s a v (Bool.eq_false_iff.2 (by rw [Ne, coreDecodes_iff]; omega)), platformWrite_default a v s hp,
    workRamCell_echo a h]

/-- With the default platform, a bus write to ROM or to an address that nothing decodes changes nothing. -/
theorem busWrite_dropped (s : State) (a : Word) (v : Byte) (hp : s.platform = defaultPlatform)
    (h : a.toNat ≤ 0x7FFF ∨ (0xA000 ≤ a.toNat ∧ a.toNat ≤ 0xBFFF) ∨ (0xFEA0 ≤ a.toNat ∧ a.toNat ≤ 0xFF03) ∨
      (0xFF08 ≤ a.toNat ∧ a.toNat ≤ 0xFF0E) ∨ (0xFF10 ≤ a.toNat ∧ a.toNat ≤ 0xFF3F) ∨
      (0xFF4C ≤ a.toNat ∧ a.toNat ≤ 0xFF7F)) : busWrite s a v = s := by
  rw [busWrite_platform s a v (Bool.eq_false_iff.2 (by rw [Ne, coreDecodes_iff]; omega)), platformWrite_default a v s hp,
    workRamCell_none a (by omega)]

/-! Writes to the registers: the register's effect, and then the platform gets the write. -/

theorem busWrite_if (s : State) (v : Byte) :
    busWrite s 0xFF0F#16 v = platformWrite 0xFF0F#16 v { s with cpu := { s.cpu with ifReg := v } } := rfl
theorem busWrite_ie (s : State) (v : Byte) :
    busWrite s 0xFFFF#16 v = platformWrite 0xFFFF#16 v { s with cpu := { s.cpu with ie := v } } := rfl
theorem busWrite_div (s : State) (v : Byte) :
    busWrite s 0xFF04#16 v = platformWrite 0xFF04#16 v (timerChange { s.timer with counter := 0#16 } s) := rfl
theorem busWrite_tima (s : State) (v : Byte) :
    busWrite s 0xFF05#16 v = platformWrite 0xFF05#16 v { s with timer := { s.timer with tima := v } } := rfl
theorem busWrite_tma (s : State) (v : Byte) :
    busWrite s 0xFF06#16 v = platformWrite 0xFF06#16 v { s with timer := { s.timer with tma := v } } := rfl
theorem busWrite_tac (s : State) (v : Byte) :
    busWrite s 0xFF07#16 v = platformWrite 0xFF07#16 v (timerChange { s.timer with tac := v } s) := rfl

/-- A write to a register of the display's bank. -/
theorem busWrite_lcdReg (s : State) (a : Word) (v : Byte) (h : 0xFF40 ≤ a.toNat ∧ a.toNat ≤ 0xFF4B) :
    busWrite s a v = platformWrite a v (lcdRegWrite (a.toNat - 0xFF40) v s) := by
  rw [busWrite_chain, cpuWrite_none s a v (by omega) (by omega), timerWrite_none s a v (by omega)]
  have hl : lcdWrite s a v = lcdRegWrite (a.toNat - 0xFF40) v s := by
    unfold lcdWrite lcdDecodesRam
    rw [inWindow_false _ _ _ (by omega), inWindow_false _ _ _ (by omega), (inWindow_iff 0xFF40 0xFF4B a).2 h,
      if_neg (by decide), if_pos rfl]
  rw [hl]

/-- Every address of the default map lies in one of the regions above. -/
theorem address_cases (a : Word) :
    (a.toNat ≤ 0x7FFF ∨ (0xA000 ≤ a.toNat ∧ a.toNat ≤ 0xBFFF) ∨ (0xFEA0 ≤ a.toNat ∧ a.toNat ≤ 0xFF03) ∨
      (0xFF08 ≤ a.toNat ∧ a.toNat ≤ 0xFF0E) ∨ (0xFF10 ≤ a.toNat ∧ a.toNat ≤ 0xFF3F) ∨
      (0xFF4C ≤ a.toNat ∧ a.toNat ≤ 0xFF7F)) ∨
    (isStorage a.toNat = true ∧ 0x8000 ≤ a.toNat) ∨ (0xE000 ≤ a.toNat ∧ a.toNat ≤ 0xFDFF) ∨
    (a = 0xFF0F#16 ∨ a = 0xFFFF#16 ∨ a = 0xFF04#16 ∨ a = 0xFF05#16 ∨ a = 0xFF06#16 ∨ a = 0xFF07#16) ∨
    (0xFF40 ≤ a.toNat ∧ a.toNat ≤ 0xFF4B) := by
  rw [isStorage_iff]
  have hlt := a.isLt
  have e : ∀ b : Word, a.toNat = b.toNat → a = b := fun b h => BitVec.eq_of_toNat_eq h
  by_cases h1 : a.toNat = 0xFF0F
  · exact .inr (.inr (.inr (.inl (.inl (e _ h1)))))
  by_cases h2 : a.toNat = 0xFFFF
  · exact .inr (.inr (.inr (.inl (.inr (.inl (e _ h2))))))
  by_cases h3 : a.toNat = 0xFF04
  · exact .inr (.inr (.inr (.inl (.inr (.inr (.inl (e _ h3)))))))
  by_cases h4 : a.toNat = 0xFF05
  · exact .inr (.inr (.inr (.inl (.inr (.inr (.inr (.inl (e _ h4))))))))
  by_cases h5 : a.toNat = 0xFF06
  · exact .inr (.inr (.inr (.inl (.inr (.inr (.inr (.inr (.inl (e _ h5)))))))))
  by_cases h6 : a.toNat = 0xFF07
  · exact .inr (.inr (.inr (.inl (.inr (.inr (.inr (.inr (.inr (e _ h6)))))))))
  omega

/-! ## What a read sees of a change -/

/-- A read of a register of the display's bank. -/
theorem busRead_lcdReg (t : State) (b : Word) (g : 0xFF40 ≤ b.toNat ∧ b.toNat ≤ 0xFF4B) :
    busRead t b = (lcdRegRead t.lcd (b.toNat - 0xFF40)).getD 0xFF#8 := by
  rw [busRead_chain, cpuRead_none _ _ (by omega) (by omega), timerRead_none _ _ (by omega)]
  have hl : lcdRead t b = lcdRegRead t.lcd (b.toNat - 0xFF40) := by
    unfold lcdRead lcdDecodesRam
    rw [inWindow_false _ _ _ (by omega), inWindow_false _ _ _ (by omega), (inWindow_iff 0xFF40 0xFF4B b).2 g,
      if_neg (by decide), if_pos rfl]
  rw [hl]
  rcases (by omega : b.toNat - 0xFF40 = 0 ∨ b.toNat - 0xFF40 = 1 ∨ b.toNat - 0xFF40 = 2 ∨ b.toNat - 0xFF40 = 3 ∨
    b.toNat - 0xFF40 = 4 ∨ b.toNat - 0xFF40 = 5 ∨ b.toNat - 0xFF40 = 6 ∨ b.toNat - 0xFF40 = 7 ∨ b.toNat - 0xFF40 = 8 ∨
    b.toNat - 0xFF40 = 9 ∨ b.toNat - 0xFF40 = 10 ∨ b.toNat - 0xFF40 = 11) with
    h | h | h | h | h | h | h | h | h | h | h | h <;> rw [h] <;> rfl

/-- A storage write is not seen by a read of another cell. -/
theorem busRead_memWrite_ne (s : State) (k : Nat) (v : Byte) (b : Word) (h : b.toNat ≠ k)
    (h' : ∀ j, workRamCell b = some j → j ≠ k) : busRead { s with mem := s.mem.write k v } b = busRead s b := by
  have hr : (s.mem.write k v).read b.toNat = s.mem.read b.toNat := Memory.read_write_ne _ _ _ _ (Ne.symm h)
  by_cases hc : coreDecodes b = true
  · rcases core_cases b hc with g | g | g
    · rw [busRead_coreRam _ _ g, busRead_coreRam _ _ g]
      exact hr
    · rcases g with rfl | rfl | rfl | rfl | rfl | rfl <;> rfl
    · rw [busRead_lcdReg _ _ g, busRead_lcdReg _ _ g]
  · rw [busRead_platform _ _ (Bool.eq_false_iff.2 hc), busRead_platform _ _ (Bool.eq_false_iff.2 hc)]
    have hf : platformRead { s with mem := s.mem.write k v } b = platformRead s b := by
      funext c
      cases c with
      | cartridge => simp only [platformRead, hr]
      | workRam =>
        simp only [platformRead]
        cases hw : workRamCell b with
        | none => rfl
        | some j => exact congrArg some (Memory.read_write_ne _ _ _ _ (Ne.symm (h' j hw)))
      | memory first last writable cells => rfl
      | external number own => rfl
    rw [hf]

/-- With the storage, the platform and the cycle unchanged, a read changes only where it reads a register that changed. -/
theorem busRead_registers (s t : State) (b : Word) (hm : t.mem = s.mem) (hp : t.platform = s.platform)
    (hn : t.now = s.now) (hif : t.cpu.ifReg = s.cpu.ifReg ∨ b ≠ 0xFF0F#16) (hie : t.cpu.ie = s.cpu.ie ∨ b ≠ 0xFFFF#16)
    (hd : hi t.timer.counter = hi s.timer.counter ∨ b ≠ 0xFF04#16)
    (ht : t.timer.tima = s.timer.tima ∨ b ≠ 0xFF05#16) (htm : t.timer.tma = s.timer.tma ∨ b ≠ 0xFF06#16)
    (htc : t.timer.tac = s.timer.tac ∨ b ≠ 0xFF07#16)
    (hl : ∀ i, i < 12 → lcdRegRead t.lcd i = lcdRegRead s.lcd i ∨ b.toNat ≠ 0xFF40 + i) :
    busRead t b = busRead s b := by
  by_cases hc : coreDecodes b = true
  · rcases core_cases b hc with g | g | g
    · rw [busRead_coreRam _ _ g, busRead_coreRam _ _ g, hm]
    · rcases g with rfl | rfl | rfl | rfl | rfl | rfl
      · exact hif.resolve_right (fun h => h rfl)
      · exact hie.resolve_right (fun h => h rfl)
      · exact hd.resolve_right (fun h => h rfl)
      · exact ht.resolve_right (fun h => h rfl)
      · exact htm.resolve_right (fun h => h rfl)
      · exact htc.resolve_right (fun h => h rfl)
    · rw [busRead_lcdReg _ _ g, busRead_lcdReg _ _ g]
      rcases hl (b.toNat - 0xFF40) (by omega) with h | h
      · rw [h]
      · omega
  · rw [busRead_platform _ _ (Bool.eq_false_iff.2 hc), busRead_platform _ _ (Bool.eq_false_iff.2 hc),
      platformRead_congr s t hm hn, hp]

/-! ## The storage keeps its form -/

/-- The bytes a component stores keep their form, and the storage stays canonical and on storage. -/
theorem writeEach_wf (a : Word) (v : Byte) (l : List PlatformComponent) (s : State) (hw : s.mem.wf = true)
    (hs : s.mem.onStorage = true) (hl : l.all PlatformComponent.wf = true) :
    (writeEach a v l s).1.all PlatformComponent.wf = true ∧ (writeEach a v l s).2.mem.wf = true ∧
      (writeEach a v l s).2.mem.onStorage = true := by
  induction l generalizing s with
  | nil => exact ⟨rfl, hw, hs⟩
  | cons c l ih =>
    simp only [List.all_cons, Bool.and_eq_true] at hl
    have key : (PlatformComponent.write a v s c).1.wf = true ∧ (PlatformComponent.write a v s c).2.mem.wf = true ∧
        (PlatformComponent.write a v s c).2.mem.onStorage = true := by
      cases c with
      | cartridge => exact ⟨rfl, hw, hs⟩
      | workRam =>
        simp only [PlatformComponent.write]
        split
        · rename_i k hk
          have hr := workRamCell_range a k hk
          exact ⟨rfl, Memory.wf_write _ _ _ hw, Memory.onStorage_write _ _ _ (by rw [isStorage_iff]; omega) hs⟩
        · exact ⟨rfl, hw, hs⟩
      | memory first last writable cells =>
        refine ⟨?_, hw, hs⟩
        have hc := hl.1
        simp only [PlatformComponent.wf, Bool.and_eq_true] at hc
        simp only [PlatformComponent.write, PlatformComponent.wf]
        split
        · rename_i hi
          simp only [Bool.and_eq_true, inWindow_iff] at hi
          rw [Bool.and_eq_true]
          exact ⟨Memory.wf_write _ _ _ hc.1, Memory.all_write _ _ _ _ (decide_eq_true hi.2) hc.2⟩
        · rw [Bool.and_eq_true]
          exact hc
      | external number own =>
        refine ⟨rfl, ?_⟩
        simp only [PlatformComponent.write]
        rw [requestAll_spec]
        exact ⟨hw, hs⟩
    obtain ⟨h1, h2, h3⟩ := ih _ key.2.1 key.2.2 hl.2
    refine ⟨?_, h2, h3⟩
    show (_ :: _ : List PlatformComponent).all PlatformComponent.wf = true
    rw [List.all_cons, key.1, h1]
    rfl

/-- A bus write keeps the canonical form of the storage and of the platform, and lists storage cells only. -/
theorem busWrite_wf (s : State) (a : Word) (v : Byte) (hw : s.mem.wf = true) (hs : s.mem.onStorage = true)
    (hp : s.platform.all PlatformComponent.wf = true) :
    (busWrite s a v).mem.wf = true ∧ (busWrite s a v).mem.onStorage = true ∧
      (busWrite s a v).platform.all PlatformComponent.wf = true := by
  have key : ∀ t : State, t.mem.wf = true → t.mem.onStorage = true → t.platform.all PlatformComponent.wf = true →
      (platformWrite a v t).mem.wf = true ∧ (platformWrite a v t).mem.onStorage = true ∧
        (platformWrite a v t).platform.all PlatformComponent.wf = true := fun t h1 h2 h3 =>
    let ⟨g1, g2, g3⟩ := writeEach_wf a v t.platform t h1 h2 h3
    ⟨g2, g3, g1⟩
  by_cases hc : coreDecodes a = true
  · rcases core_cases a hc with g | g | g
    · rw [busWrite_coreRam s a v g]
      refine key _ (Memory.wf_write _ _ _ hw) (Memory.onStorage_write _ _ _ ?_ hs) hp
      rw [coreRam_iff] at g
      rw [isStorage_iff]
      omega
    · rcases g with rfl | rfl | rfl | rfl | rfl | rfl
      · exact key _ hw hs hp
      · exact key _ hw hs hp
      · rw [busWrite_div]
        have h := timerChange_rest { s.timer with counter := 0#16 } s
        exact key _ (by rw [h.2.1]; exact hw) (by rw [h.2.1]; exact hs) (by rw [timerChange_platform]; exact hp)
      · exact key _ hw hs hp
      · exact key _ hw hs hp
      · rw [busWrite_tac]
        have h := timerChange_rest { s.timer with tac := v } s
        exact key _ (by rw [h.2.1]; exact hw) (by rw [h.2.1]; exact hs) (by rw [timerChange_platform]; exact hp)
    · rw [busWrite_lcdReg s a v g]
      have h := lcdRegWrite_frame (a.toNat - 0xFF40) v s
      exact key _ (by rw [h.2.2.1]; exact hw) (by rw [h.2.2.1]; exact hs) (by rw [lcdRegWrite_platform]; exact hp)
  · rw [busWrite_platform s a v (Bool.eq_false_iff.2 hc)]
    exact key s hw hs hp

end Sys2Proof.Machine
end

