-- ==== Sys2Proof/Laws/State.lean ====
section
/-! SUPPORT. One lemma per field per update of State, so that no proof unfolds a record update. -/

namespace Sys2Proof.Machine

variable (s : State)

/-! ### setSp -/

@[simp] theorem State.setSp_a (v : Word) : (s.setSp v).cpu.a = s.cpu.a := rfl
@[simp] theorem State.setSp_f (v : Word) : (s.setSp v).cpu.f = s.cpu.f := rfl
@[simp] theorem State.setSp_b (v : Word) : (s.setSp v).cpu.b = s.cpu.b := rfl
@[simp] theorem State.setSp_c (v : Word) : (s.setSp v).cpu.c = s.cpu.c := rfl
@[simp] theorem State.setSp_d (v : Word) : (s.setSp v).cpu.d = s.cpu.d := rfl
@[simp] theorem State.setSp_e (v : Word) : (s.setSp v).cpu.e = s.cpu.e := rfl
@[simp] theorem State.setSp_h (v : Word) : (s.setSp v).cpu.h = s.cpu.h := rfl
@[simp] theorem State.setSp_l (v : Word) : (s.setSp v).cpu.l = s.cpu.l := rfl
@[simp] theorem State.setSp_pc (v : Word) : (s.setSp v).cpu.pc = s.cpu.pc := rfl
@[simp] theorem State.setSp_sp (v : Word) : (s.setSp v).cpu.sp = v := rfl
@[simp] theorem State.setSp_ime (v : Word) : (s.setSp v).cpu.ime = s.cpu.ime := rfl
@[simp] theorem State.setSp_ifReg (v : Word) : (s.setSp v).cpu.ifReg = s.cpu.ifReg := rfl
@[simp] theorem State.setSp_ie (v : Word) : (s.setSp v).cpu.ie = s.cpu.ie := rfl
@[simp] theorem State.setSp_next (v : Word) : (s.setSp v).cpu.next = s.cpu.next := rfl
@[simp] theorem State.setSp_timer (v : Word) : (s.setSp v).timer = s.timer := rfl
@[simp] theorem State.setSp_lcd (v : Word) : (s.setSp v).lcd = s.lcd := rfl
@[simp] theorem State.setSp_mem (v : Word) : (s.setSp v).mem = s.mem := rfl
@[simp] theorem State.setSp_platform (v : Word) : (s.setSp v).platform = s.platform := rfl
@[simp] theorem State.setSp_hostEvents (v : Word) : (s.setSp v).hostEvents = s.hostEvents := rfl
@[simp] theorem State.setSp_now (v : Word) : (s.setSp v).now = s.now := rfl
@[simp] theorem State.setSp_fatal (v : Word) : (s.setSp v).fatal = s.fatal := rfl
@[simp] theorem State.setSp_reg (v : Word) (r : Reg8) : (s.setSp v).reg r = s.reg r := by cases r <;> rfl

/-! ### setPc -/

@[simp] theorem State.setPc_a (v : Word) : (s.setPc v).cpu.a = s.cpu.a := rfl
@[simp] theorem State.setPc_f (v : Word) : (s.setPc v).cpu.f = s.cpu.f := rfl
@[simp] theorem State.setPc_b (v : Word) : (s.setPc v).cpu.b = s.cpu.b := rfl
@[simp] theorem State.setPc_c (v : Word) : (s.setPc v).cpu.c = s.cpu.c := rfl
@[simp] theorem State.setPc_d (v : Word) : (s.setPc v).cpu.d = s.cpu.d := rfl
@[simp] theorem State.setPc_e (v : Word) : (s.setPc v).cpu.e = s.cpu.e := rfl
@[simp] theorem State.setPc_h (v : Word) : (s.setPc v).cpu.h = s.cpu.h := rfl
@[simp] theorem State.setPc_l (v : Word) : (s.setPc v).cpu.l = s.cpu.l := rfl
@[simp] theorem State.setPc_pc (v : Word) : (s.setPc v).cpu.pc = v := rfl
@[simp] theorem State.setPc_sp (v : Word) : (s.setPc v).cpu.sp = s.cpu.sp := rfl
@[simp] theorem State.setPc_ime (v : Word) : (s.setPc v).cpu.ime = s.cpu.ime := rfl
@[simp] theorem State.setPc_ifReg (v : Word) : (s.setPc v).cpu.ifReg = s.cpu.ifReg := rfl
@[simp] theorem State.setPc_ie (v : Word) : (s.setPc v).cpu.ie = s.cpu.ie := rfl
@[simp] theorem State.setPc_next (v : Word) : (s.setPc v).cpu.next = s.cpu.next := rfl
@[simp] theorem State.setPc_timer (v : Word) : (s.setPc v).timer = s.timer := rfl
@[simp] theorem State.setPc_lcd (v : Word) : (s.setPc v).lcd = s.lcd := rfl
@[simp] theorem State.setPc_mem (v : Word) : (s.setPc v).mem = s.mem := rfl
@[simp] theorem State.setPc_platform (v : Word) : (s.setPc v).platform = s.platform := rfl
@[simp] theorem State.setPc_hostEvents (v : Word) : (s.setPc v).hostEvents = s.hostEvents := rfl
@[simp] theorem State.setPc_now (v : Word) : (s.setPc v).now = s.now := rfl
@[simp] theorem State.setPc_fatal (v : Word) : (s.setPc v).fatal = s.fatal := rfl
@[simp] theorem State.setPc_reg (v : Word) (r : Reg8) : (s.setPc v).reg r = s.reg r := by cases r <;> rfl

/-! ### setIme -/

@[simp] theorem State.setIme_a (x : Bool) : (s.setIme x).cpu.a = s.cpu.a := rfl
@[simp] theorem State.setIme_f (x : Bool) : (s.setIme x).cpu.f = s.cpu.f := rfl
@[simp] theorem State.setIme_b (x : Bool) : (s.setIme x).cpu.b = s.cpu.b := rfl
@[simp] theorem State.setIme_c (x : Bool) : (s.setIme x).cpu.c = s.cpu.c := rfl
@[simp] theorem State.setIme_d (x : Bool) : (s.setIme x).cpu.d = s.cpu.d := rfl
@[simp] theorem State.setIme_e (x : Bool) : (s.setIme x).cpu.e = s.cpu.e := rfl
@[simp] theorem State.setIme_h (x : Bool) : (s.setIme x).cpu.h = s.cpu.h := rfl
@[simp] theorem State.setIme_l (x : Bool) : (s.setIme x).cpu.l = s.cpu.l := rfl
@[simp] theorem State.setIme_pc (x : Bool) : (s.setIme x).cpu.pc = s.cpu.pc := rfl
@[simp] theorem State.setIme_sp (x : Bool) : (s.setIme x).cpu.sp = s.cpu.sp := rfl
@[simp] theorem State.setIme_ime (x : Bool) : (s.setIme x).cpu.ime = x := rfl
@[simp] theorem State.setIme_ifReg (x : Bool) : (s.setIme x).cpu.ifReg = s.cpu.ifReg := rfl
@[simp] theorem State.setIme_ie (x : Bool) : (s.setIme x).cpu.ie = s.cpu.ie := rfl
@[simp] theorem State.setIme_next (x : Bool) : (s.setIme x).cpu.next = s.cpu.next := rfl
@[simp] theorem State.setIme_timer (x : Bool) : (s.setIme x).timer = s.timer := rfl
@[simp] theorem State.setIme_lcd (x : Bool) : (s.setIme x).lcd = s.lcd := rfl
@[simp] theorem State.setIme_mem (x : Bool) : (s.setIme x).mem = s.mem := rfl
@[simp] theorem State.setIme_platform (x : Bool) : (s.setIme x).platform = s.platform := rfl
@[simp] theorem State.setIme_hostEvents (x : Bool) : (s.setIme x).hostEvents = s.hostEvents := rfl
@[simp] theorem State.setIme_now (x : Bool) : (s.setIme x).now = s.now := rfl
@[simp] theorem State.setIme_fatal (x : Bool) : (s.setIme x).fatal = s.fatal := rfl
@[simp] theorem State.setIme_reg (x : Bool) (r : Reg8) : (s.setIme x).reg r = s.reg r := by cases r <;> rfl

/-! ### setNext -/

@[simp] theorem State.setNext_a (n : Option Nat) : (s.setNext n).cpu.a = s.cpu.a := rfl
@[simp] theorem State.setNext_f (n : Option Nat) : (s.setNext n).cpu.f = s.cpu.f := rfl
@[simp] theorem State.setNext_b (n : Option Nat) : (s.setNext n).cpu.b = s.cpu.b := rfl
@[simp] theorem State.setNext_c (n : Option Nat) : (s.setNext n).cpu.c = s.cpu.c := rfl
@[simp] theorem State.setNext_d (n : Option Nat) : (s.setNext n).cpu.d = s.cpu.d := rfl
@[simp] theorem State.setNext_e (n : Option Nat) : (s.setNext n).cpu.e = s.cpu.e := rfl
@[simp] theorem State.setNext_h (n : Option Nat) : (s.setNext n).cpu.h = s.cpu.h := rfl
@[simp] theorem State.setNext_l (n : Option Nat) : (s.setNext n).cpu.l = s.cpu.l := rfl
@[simp] theorem State.setNext_pc (n : Option Nat) : (s.setNext n).cpu.pc = s.cpu.pc := rfl
@[simp] theorem State.setNext_sp (n : Option Nat) : (s.setNext n).cpu.sp = s.cpu.sp := rfl
@[simp] theorem State.setNext_ime (n : Option Nat) : (s.setNext n).cpu.ime = s.cpu.ime := rfl
@[simp] theorem State.setNext_ifReg (n : Option Nat) : (s.setNext n).cpu.ifReg = s.cpu.ifReg := rfl
@[simp] theorem State.setNext_ie (n : Option Nat) : (s.setNext n).cpu.ie = s.cpu.ie := rfl
@[simp] theorem State.setNext_next (n : Option Nat) : (s.setNext n).cpu.next = n := rfl
@[simp] theorem State.setNext_timer (n : Option Nat) : (s.setNext n).timer = s.timer := rfl
@[simp] theorem State.setNext_lcd (n : Option Nat) : (s.setNext n).lcd = s.lcd := rfl
@[simp] theorem State.setNext_mem (n : Option Nat) : (s.setNext n).mem = s.mem := rfl
@[simp] theorem State.setNext_platform (n : Option Nat) : (s.setNext n).platform = s.platform := rfl
@[simp] theorem State.setNext_hostEvents (n : Option Nat) : (s.setNext n).hostEvents = s.hostEvents := rfl
@[simp] theorem State.setNext_now (n : Option Nat) : (s.setNext n).now = s.now := rfl
@[simp] theorem State.setNext_fatal (n : Option Nat) : (s.setNext n).fatal = s.fatal := rfl
@[simp] theorem State.setNext_reg (n : Option Nat) (r : Reg8) : (s.setNext n).reg r = s.reg r := by cases r <;> rfl

/-! ### setF -/

@[simp] theorem State.setF_a (v : Byte) : (s.setF v).cpu.a = s.cpu.a := rfl
@[simp] theorem State.setF_f (v : Byte) : (s.setF v).cpu.f = v := rfl
@[simp] theorem State.setF_b (v : Byte) : (s.setF v).cpu.b = s.cpu.b := rfl
@[simp] theorem State.setF_c (v : Byte) : (s.setF v).cpu.c = s.cpu.c := rfl
@[simp] theorem State.setF_d (v : Byte) : (s.setF v).cpu.d = s.cpu.d := rfl
@[simp] theorem State.setF_e (v : Byte) : (s.setF v).cpu.e = s.cpu.e := rfl
@[simp] theorem State.setF_h (v : Byte) : (s.setF v).cpu.h = s.cpu.h := rfl
@[simp] theorem State.setF_l (v : Byte) : (s.setF v).cpu.l = s.cpu.l := rfl
@[simp] theorem State.setF_pc (v : Byte) : (s.setF v).cpu.pc = s.cpu.pc := rfl
@[simp] theorem State.setF_sp (v : Byte) : (s.setF v).cpu.sp = s.cpu.sp := rfl
@[simp] theorem State.setF_ime (v : Byte) : (s.setF v).cpu.ime = s.cpu.ime := rfl
@[simp] theorem State.setF_ifReg (v : Byte) : (s.setF v).cpu.ifReg = s.cpu.ifReg := rfl
@[simp] theorem State.setF_ie (v : Byte) : (s.setF v).cpu.ie = s.cpu.ie := rfl
@[simp] theorem State.setF_next (v : Byte) : (s.setF v).cpu.next = s.cpu.next := rfl
@[simp] theorem State.setF_timer (v : Byte) : (s.setF v).timer = s.timer := rfl
@[simp] theorem State.setF_lcd (v : Byte) : (s.setF v).lcd = s.lcd := rfl
@[simp] theorem State.setF_mem (v : Byte) : (s.setF v).mem = s.mem := rfl
@[simp] theorem State.setF_platform (v : Byte) : (s.setF v).platform = s.platform := rfl
@[simp] theorem State.setF_hostEvents (v : Byte) : (s.setF v).hostEvents = s.hostEvents := rfl
@[simp] theorem State.setF_now (v : Byte) : (s.setF v).now = s.now := rfl
@[simp] theorem State.setF_fatal (v : Byte) : (s.setF v).fatal = s.fatal := rfl
@[simp] theorem State.setF_reg (v : Byte) (r : Reg8) : (s.setF v).reg r = s.reg r := by cases r <;> rfl

/-! ### setBc -/

@[simp] theorem State.setBc_a (v : Word) : (s.setBc v).cpu.a = s.cpu.a := rfl
@[simp] theorem State.setBc_f (v : Word) : (s.setBc v).cpu.f = s.cpu.f := rfl
@[simp] theorem State.setBc_b (v : Word) : (s.setBc v).cpu.b = hi v := rfl
@[simp] theorem State.setBc_c (v : Word) : (s.setBc v).cpu.c = lo v := rfl
@[simp] theorem State.setBc_d (v : Word) : (s.setBc v).cpu.d = s.cpu.d := rfl
@[simp] theorem State.setBc_e (v : Word) : (s.setBc v).cpu.e = s.cpu.e := rfl
@[simp] theorem State.setBc_h (v : Word) : (s.setBc v).cpu.h = s.cpu.h := rfl
@[simp] theorem State.setBc_l (v : Word) : (s.setBc v).cpu.l = s.cpu.l := rfl
@[simp] theorem State.setBc_pc (v : Word) : (s.setBc v).cpu.pc = s.cpu.pc := rfl
@[simp] theorem State.setBc_sp (v : Word) : (s.setBc v).cpu.sp = s.cpu.sp := rfl
@[simp] theorem State.setBc_ime (v : Word) : (s.setBc v).cpu.ime = s.cpu.ime := rfl
@[simp] theorem State.setBc_ifReg (v : Word) : (s.setBc v).cpu.ifReg = s.cpu.ifReg := rfl
@[simp] theorem State.setBc_ie (v : Word) : (s.setBc v).cpu.ie = s.cpu.ie := rfl
@[simp] theorem State.setBc_next (v : Word) : (s.setBc v).cpu.next = s.cpu.next := rfl
@[simp] theorem State.setBc_timer (v : Word) : (s.setBc v).timer = s.timer := rfl
@[simp] theorem State.setBc_lcd (v : Word) : (s.setBc v).lcd = s.lcd := rfl
@[simp] theorem State.setBc_mem (v : Word) : (s.setBc v).mem = s.mem := rfl
@[simp] theorem State.setBc_platform (v : Word) : (s.setBc v).platform = s.platform := rfl
@[simp] theorem State.setBc_hostEvents (v : Word) : (s.setBc v).hostEvents = s.hostEvents := rfl
@[simp] theorem State.setBc_now (v : Word) : (s.setBc v).now = s.now := rfl
@[simp] theorem State.setBc_fatal (v : Word) : (s.setBc v).fatal = s.fatal := rfl

/-! ### setDe -/

@[simp] theorem State.setDe_a (v : Word) : (s.setDe v).cpu.a = s.cpu.a := rfl
@[simp] theorem State.setDe_f (v : Word) : (s.setDe v).cpu.f = s.cpu.f := rfl
@[simp] theorem State.setDe_b (v : Word) : (s.setDe v).cpu.b = s.cpu.b := rfl
@[simp] theorem State.setDe_c (v : Word) : (s.setDe v).cpu.c = s.cpu.c := rfl
@[simp] theorem State.setDe_d (v : Word) : (s.setDe v).cpu.d = hi v := rfl
@[simp] theorem State.setDe_e (v : Word) : (s.setDe v).cpu.e = lo v := rfl
@[simp] theorem State.setDe_h (v : Word) : (s.setDe v).cpu.h = s.cpu.h := rfl
@[simp] theorem State.setDe_l (v : Word) : (s.setDe v).cpu.l = s.cpu.l := rfl
@[simp] theorem State.setDe_pc (v : Word) : (s.setDe v).cpu.pc = s.cpu.pc := rfl
@[simp] theorem State.setDe_sp (v : Word) : (s.setDe v).cpu.sp = s.cpu.sp := rfl
@[simp] theorem State.setDe_ime (v : Word) : (s.setDe v).cpu.ime = s.cpu.ime := rfl
@[simp] theorem State.setDe_ifReg (v : Word) : (s.setDe v).cpu.ifReg = s.cpu.ifReg := rfl
@[simp] theorem State.setDe_ie (v : Word) : (s.setDe v).cpu.ie = s.cpu.ie := rfl
@[simp] theorem State.setDe_next (v : Word) : (s.setDe v).cpu.next = s.cpu.next := rfl
@[simp] theorem State.setDe_timer (v : Word) : (s.setDe v).timer = s.timer := rfl
@[simp] theorem State.setDe_lcd (v : Word) : (s.setDe v).lcd = s.lcd := rfl
@[simp] theorem State.setDe_mem (v : Word) : (s.setDe v).mem = s.mem := rfl
@[simp] theorem State.setDe_platform (v : Word) : (s.setDe v).platform = s.platform := rfl
@[simp] theorem State.setDe_hostEvents (v : Word) : (s.setDe v).hostEvents = s.hostEvents := rfl
@[simp] theorem State.setDe_now (v : Word) : (s.setDe v).now = s.now := rfl
@[simp] theorem State.setDe_fatal (v : Word) : (s.setDe v).fatal = s.fatal := rfl

/-! ### setHl -/

@[simp] theorem State.setHl_a (v : Word) : (s.setHl v).cpu.a = s.cpu.a := rfl
@[simp] theorem State.setHl_f (v : Word) : (s.setHl v).cpu.f = s.cpu.f := rfl
@[simp] theorem State.setHl_b (v : Word) : (s.setHl v).cpu.b = s.cpu.b := rfl
@[simp] theorem State.setHl_c (v : Word) : (s.setHl v).cpu.c = s.cpu.c := rfl
@[simp] theorem State.setHl_d (v : Word) : (s.setHl v).cpu.d = s.cpu.d := rfl
@[simp] theorem State.setHl_e (v : Word) : (s.setHl v).cpu.e = s.cpu.e := rfl
@[simp] theorem State.setHl_h (v : Word) : (s.setHl v).cpu.h = hi v := rfl
@[simp] theorem State.setHl_l (v : Word) : (s.setHl v).cpu.l = lo v := rfl
@[simp] theorem State.setHl_pc (v : Word) : (s.setHl v).cpu.pc = s.cpu.pc := rfl
@[simp] theorem State.setHl_sp (v : Word) : (s.setHl v).cpu.sp = s.cpu.sp := rfl
@[simp] theorem State.setHl_ime (v : Word) : (s.setHl v).cpu.ime = s.cpu.ime := rfl
@[simp] theorem State.setHl_ifReg (v : Word) : (s.setHl v).cpu.ifReg = s.cpu.ifReg := rfl
@[simp] theorem State.setHl_ie (v : Word) : (s.setHl v).cpu.ie = s.cpu.ie := rfl
@[simp] theorem State.setHl_next (v : Word) : (s.setHl v).cpu.next = s.cpu.next := rfl
@[simp] theorem State.setHl_timer (v : Word) : (s.setHl v).timer = s.timer := rfl
@[simp] theorem State.setHl_lcd (v : Word) : (s.setHl v).lcd = s.lcd := rfl
@[simp] theorem State.setHl_mem (v : Word) : (s.setHl v).mem = s.mem := rfl
@[simp] theorem State.setHl_platform (v : Word) : (s.setHl v).platform = s.platform := rfl
@[simp] theorem State.setHl_hostEvents (v : Word) : (s.setHl v).hostEvents = s.hostEvents := rfl
@[simp] theorem State.setHl_now (v : Word) : (s.setHl v).now = s.now := rfl
@[simp] theorem State.setHl_fatal (v : Word) : (s.setHl v).fatal = s.fatal := rfl

/-! ### setAf -/

@[simp] theorem State.setAf_a (v : Word) : (s.setAf v).cpu.a = hi v := rfl
@[simp] theorem State.setAf_f (v : Word) : (s.setAf v).cpu.f = lo v &&& 0xF0#8 := rfl
@[simp] theorem State.setAf_b (v : Word) : (s.setAf v).cpu.b = s.cpu.b := rfl
@[simp] theorem State.setAf_c (v : Word) : (s.setAf v).cpu.c = s.cpu.c := rfl
@[simp] theorem State.setAf_d (v : Word) : (s.setAf v).cpu.d = s.cpu.d := rfl
@[simp] theorem State.setAf_e (v : Word) : (s.setAf v).cpu.e = s.cpu.e := rfl
@[simp] theorem State.setAf_h (v : Word) : (s.setAf v).cpu.h = s.cpu.h := rfl
@[simp] theorem State.setAf_l (v : Word) : (s.setAf v).cpu.l = s.cpu.l := rfl
@[simp] theorem State.setAf_pc (v : Word) : (s.setAf v).cpu.pc = s.cpu.pc := rfl
@[simp] theorem State.setAf_sp (v : Word) : (s.setAf v).cpu.sp = s.cpu.sp := rfl
@[simp] theorem State.setAf_ime (v : Word) : (s.setAf v).cpu.ime = s.cpu.ime := rfl
@[simp] theorem State.setAf_ifReg (v : Word) : (s.setAf v).cpu.ifReg = s.cpu.ifReg := rfl
@[simp] theorem State.setAf_ie (v : Word) : (s.setAf v).cpu.ie = s.cpu.ie := rfl
@[simp] theorem State.setAf_next (v : Word) : (s.setAf v).cpu.next = s.cpu.next := rfl
@[simp] theorem State.setAf_timer (v : Word) : (s.setAf v).timer = s.timer := rfl
@[simp] theorem State.setAf_lcd (v : Word) : (s.setAf v).lcd = s.lcd := rfl
@[simp] theorem State.setAf_mem (v : Word) : (s.setAf v).mem = s.mem := rfl
@[simp] theorem State.setAf_platform (v : Word) : (s.setAf v).platform = s.platform := rfl
@[simp] theorem State.setAf_hostEvents (v : Word) : (s.setAf v).hostEvents = s.hostEvents := rfl
@[simp] theorem State.setAf_now (v : Word) : (s.setAf v).now = s.now := rfl
@[simp] theorem State.setAf_fatal (v : Word) : (s.setAf v).fatal = s.fatal := rfl

/-! ### setReg -/

@[simp] theorem State.setReg_f (r : Reg8) (v : Byte) : (s.setReg r v).cpu.f = s.cpu.f := by cases r <;> rfl
@[simp] theorem State.setReg_pc (r : Reg8) (v : Byte) : (s.setReg r v).cpu.pc = s.cpu.pc := by cases r <;> rfl
@[simp] theorem State.setReg_sp (r : Reg8) (v : Byte) : (s.setReg r v).cpu.sp = s.cpu.sp := by cases r <;> rfl
@[simp] theorem State.setReg_ime (r : Reg8) (v : Byte) : (s.setReg r v).cpu.ime = s.cpu.ime := by cases r <;> rfl
@[simp] theorem State.setReg_ifReg (r : Reg8) (v : Byte) : (s.setReg r v).cpu.ifReg = s.cpu.ifReg := by cases r <;> rfl
@[simp] theorem State.setReg_ie (r : Reg8) (v : Byte) : (s.setReg r v).cpu.ie = s.cpu.ie := by cases r <;> rfl
@[simp] theorem State.setReg_next (r : Reg8) (v : Byte) : (s.setReg r v).cpu.next = s.cpu.next := by cases r <;> rfl
@[simp] theorem State.setReg_timer (r : Reg8) (v : Byte) : (s.setReg r v).timer = s.timer := by cases r <;> rfl
@[simp] theorem State.setReg_lcd (r : Reg8) (v : Byte) : (s.setReg r v).lcd = s.lcd := by cases r <;> rfl
@[simp] theorem State.setReg_mem (r : Reg8) (v : Byte) : (s.setReg r v).mem = s.mem := by cases r <;> rfl
@[simp] theorem State.setReg_platform (r : Reg8) (v : Byte) : (s.setReg r v).platform = s.platform := by cases r <;> rfl
@[simp] theorem State.setReg_hostEvents (r : Reg8) (v : Byte) : (s.setReg r v).hostEvents = s.hostEvents := by cases r <;> rfl
@[simp] theorem State.setReg_now (r : Reg8) (v : Byte) : (s.setReg r v).now = s.now := by cases r <;> rfl
@[simp] theorem State.setReg_fatal (r : Reg8) (v : Byte) : (s.setReg r v).fatal = s.fatal := by cases r <;> rfl

/-- The register file: a read after a write of one register. -/
theorem State.reg_setReg (r q : Reg8) (v : Byte) : (s.setReg r v).reg q = if q = r then v else s.reg q := by
  cases r <;> cases q <;> rfl

@[simp] theorem State.reg_setReg_self (r : Reg8) (v : Byte) : (s.setReg r v).reg r = v := by
  cases r <;> rfl

theorem State.reg_setReg_ne (r q : Reg8) (v : Byte) (h : q ≠ r) : (s.setReg r v).reg q = s.reg q := by
  rw [State.reg_setReg, if_neg h]

/-! ### setFlags -/

@[simp] theorem State.setFlags_a (z n h c : Option Bool) : (s.setFlags z n h c).cpu.a = s.cpu.a := rfl
@[simp] theorem State.setFlags_b (z n h c : Option Bool) : (s.setFlags z n h c).cpu.b = s.cpu.b := rfl
@[simp] theorem State.setFlags_c (z n h c : Option Bool) : (s.setFlags z n h c).cpu.c = s.cpu.c := rfl
@[simp] theorem State.setFlags_d (z n h c : Option Bool) : (s.setFlags z n h c).cpu.d = s.cpu.d := rfl
@[simp] theorem State.setFlags_e (z n h c : Option Bool) : (s.setFlags z n h c).cpu.e = s.cpu.e := rfl
@[simp] theorem State.setFlags_h (z n h c : Option Bool) : (s.setFlags z n h c).cpu.h = s.cpu.h := rfl
@[simp] theorem State.setFlags_l (z n h c : Option Bool) : (s.setFlags z n h c).cpu.l = s.cpu.l := rfl
@[simp] theorem State.setFlags_pc (z n h c : Option Bool) : (s.setFlags z n h c).cpu.pc = s.cpu.pc := rfl
@[simp] theorem State.setFlags_sp (z n h c : Option Bool) : (s.setFlags z n h c).cpu.sp = s.cpu.sp := rfl
@[simp] theorem State.setFlags_ime (z n h c : Option Bool) : (s.setFlags z n h c).cpu.ime = s.cpu.ime := rfl
@[simp] theorem State.setFlags_ifReg (z n h c : Option Bool) : (s.setFlags z n h c).cpu.ifReg = s.cpu.ifReg := rfl
@[simp] theorem State.setFlags_ie (z n h c : Option Bool) : (s.setFlags z n h c).cpu.ie = s.cpu.ie := rfl
@[simp] theorem State.setFlags_next (z n h c : Option Bool) : (s.setFlags z n h c).cpu.next = s.cpu.next := rfl
@[simp] theorem State.setFlags_timer (z n h c : Option Bool) : (s.setFlags z n h c).timer = s.timer := rfl
@[simp] theorem State.setFlags_lcd (z n h c : Option Bool) : (s.setFlags z n h c).lcd = s.lcd := rfl
@[simp] theorem State.setFlags_mem (z n h c : Option Bool) : (s.setFlags z n h c).mem = s.mem := rfl
@[simp] theorem State.setFlags_platform (z n h c : Option Bool) : (s.setFlags z n h c).platform = s.platform := rfl
@[simp] theorem State.setFlags_hostEvents (z n h c : Option Bool) : (s.setFlags z n h c).hostEvents = s.hostEvents := rfl
@[simp] theorem State.setFlags_now (z n h c : Option Bool) : (s.setFlags z n h c).now = s.now := rfl
@[simp] theorem State.setFlags_fatal (z n h c : Option Bool) : (s.setFlags z n h c).fatal = s.fatal := rfl
@[simp] theorem State.setFlags_reg (z n h c : Option Bool) (r : Reg8) : (s.setFlags z n h c).reg r = s.reg r := by cases r <;> rfl
@[simp] theorem State.setFlags_f (z n h c : Option Bool) :
    (s.setFlags z n h c).cpu.f = Flags.toByte ⟨z.getD s.fZ, n.getD s.fN, h.getD s.fH, c.getD s.fC⟩ := rfl

/-! ### F from four flags -/

@[simp] theorem Flags.toByte_z (x : Flags) : x.toByte.getLsbD 7 = x.z := by
  rcases x with ⟨_ | _, _ | _, _ | _, _ | _⟩ <;> rfl
@[simp] theorem Flags.toByte_n (x : Flags) : x.toByte.getLsbD 6 = x.n := by
  rcases x with ⟨_ | _, _ | _, _ | _, _ | _⟩ <;> rfl
@[simp] theorem Flags.toByte_h (x : Flags) : x.toByte.getLsbD 5 = x.h := by
  rcases x with ⟨_ | _, _ | _, _ | _, _ | _⟩ <;> rfl
@[simp] theorem Flags.toByte_c (x : Flags) : x.toByte.getLsbD 4 = x.c := by
  rcases x with ⟨_ | _, _ | _, _ | _, _ | _⟩ <;> rfl
@[simp] theorem Flags.toByte_bit7 (x : Flags) : x.toByte[7] = x.z := by
  rcases x with ⟨_ | _, _ | _, _ | _, _ | _⟩ <;> rfl
@[simp] theorem Flags.toByte_bit6 (x : Flags) : x.toByte[6] = x.n := by
  rcases x with ⟨_ | _, _ | _, _ | _, _ | _⟩ <;> rfl
@[simp] theorem Flags.toByte_bit5 (x : Flags) : x.toByte[5] = x.h := by
  rcases x with ⟨_ | _, _ | _, _ | _, _ | _⟩ <;> rfl
@[simp] theorem Flags.toByte_bit4 (x : Flags) : x.toByte[4] = x.c := by
  rcases x with ⟨_ | _, _ | _, _ | _, _ | _⟩ <;> rfl
@[simp] theorem Flags.toByte_low (x : Flags) : x.toByte &&& 0x0F#8 = 0#8 := by
  rcases x with ⟨_ | _, _ | _, _ | _, _ | _⟩ <;> rfl

/-! ### Joining and splitting words -/

theorem joinBytes_toNat (h l : Byte) : (joinBytes h l).toNat = 256 * h.toNat + l.toNat := by
  show (h ++ l).toNat = _
  rw [BitVec.toNat_append, Nat.shiftLeft_eq, ← Nat.shiftLeft_eq, ← Nat.shiftLeft_add_eq_or_of_lt l.isLt, Nat.shiftLeft_eq]
  omega
theorem lo_toNat (v : Word) : (lo v).toNat = v.toNat % 256 := by
  simp [lo, BitVec.extractLsb'_toNat]
theorem hi_toNat (v : Word) : (hi v).toNat = v.toNat / 256 := by
  have := v.isLt
  simp [hi, BitVec.extractLsb'_toNat, Nat.shiftRight_eq_div_pow]
  omega
@[simp] theorem lo_joinBytes (h l : Byte) : lo (joinBytes h l) = l := by
  apply BitVec.eq_of_toNat_eq
  have := l.isLt
  rw [lo_toNat, joinBytes_toNat]
  omega

@[simp] theorem hi_joinBytes (h l : Byte) : hi (joinBytes h l) = h := by
  apply BitVec.eq_of_toNat_eq
  have := l.isLt
  rw [hi_toNat, joinBytes_toNat]
  omega

@[simp] theorem joinBytes_hi_lo (v : Word) : joinBytes (hi v) (lo v) = v := by
  apply BitVec.eq_of_toNat_eq
  rw [joinBytes_toNat, lo_toNat, hi_toNat]
  omega

/-! ### jumpTo and commit -/

@[simp] theorem jumpTo_a (w : Word) (k : Nat) : (jumpTo w k s).cpu.a = s.cpu.a := rfl
@[simp] theorem commit_a (n k : Nat) : (commit n k s).cpu.a = s.cpu.a := rfl
@[simp] theorem jumpTo_f (w : Word) (k : Nat) : (jumpTo w k s).cpu.f = s.cpu.f := rfl
@[simp] theorem commit_f (n k : Nat) : (commit n k s).cpu.f = s.cpu.f := rfl
@[simp] theorem jumpTo_b (w : Word) (k : Nat) : (jumpTo w k s).cpu.b = s.cpu.b := rfl
@[simp] theorem commit_b (n k : Nat) : (commit n k s).cpu.b = s.cpu.b := rfl
@[simp] theorem jumpTo_c (w : Word) (k : Nat) : (jumpTo w k s).cpu.c = s.cpu.c := rfl
@[simp] theorem commit_c (n k : Nat) : (commit n k s).cpu.c = s.cpu.c := rfl
@[simp] theorem jumpTo_d (w : Word) (k : Nat) : (jumpTo w k s).cpu.d = s.cpu.d := rfl
@[simp] theorem commit_d (n k : Nat) : (commit n k s).cpu.d = s.cpu.d := rfl
@[simp] theorem jumpTo_e (w : Word) (k : Nat) : (jumpTo w k s).cpu.e = s.cpu.e := rfl
@[simp] theorem commit_e (n k : Nat) : (commit n k s).cpu.e = s.cpu.e := rfl
@[simp] theorem jumpTo_h (w : Word) (k : Nat) : (jumpTo w k s).cpu.h = s.cpu.h := rfl
@[simp] theorem commit_h (n k : Nat) : (commit n k s).cpu.h = s.cpu.h := rfl
@[simp] theorem jumpTo_l (w : Word) (k : Nat) : (jumpTo w k s).cpu.l = s.cpu.l := rfl
@[simp] theorem commit_l (n k : Nat) : (commit n k s).cpu.l = s.cpu.l := rfl
@[simp] theorem jumpTo_sp (w : Word) (k : Nat) : (jumpTo w k s).cpu.sp = s.cpu.sp := rfl
@[simp] theorem commit_sp (n k : Nat) : (commit n k s).cpu.sp = s.cpu.sp := rfl
@[simp] theorem jumpTo_ime (w : Word) (k : Nat) : (jumpTo w k s).cpu.ime = s.cpu.ime := rfl
@[simp] theorem commit_ime (n k : Nat) : (commit n k s).cpu.ime = s.cpu.ime := rfl
@[simp] theorem jumpTo_ifReg (w : Word) (k : Nat) : (jumpTo w k s).cpu.ifReg = s.cpu.ifReg := rfl
@[simp] theorem commit_ifReg (n k : Nat) : (commit n k s).cpu.ifReg = s.cpu.ifReg := rfl
@[simp] theorem jumpTo_ie (w : Word) (k : Nat) : (jumpTo w k s).cpu.ie = s.cpu.ie := rfl
@[simp] theorem commit_ie (n k : Nat) : (commit n k s).cpu.ie = s.cpu.ie := rfl
@[simp] theorem jumpTo_timer (w : Word) (k : Nat) : (jumpTo w k s).timer = s.timer := rfl
@[simp] theorem commit_timer (n k : Nat) : (commit n k s).timer = s.timer := rfl
@[simp] theorem jumpTo_lcd (w : Word) (k : Nat) : (jumpTo w k s).lcd = s.lcd := rfl
@[simp] theorem commit_lcd (n k : Nat) : (commit n k s).lcd = s.lcd := rfl
@[simp] theorem jumpTo_mem (w : Word) (k : Nat) : (jumpTo w k s).mem = s.mem := rfl
@[simp] theorem commit_mem (n k : Nat) : (commit n k s).mem = s.mem := rfl
@[simp] theorem jumpTo_platform (w : Word) (k : Nat) : (jumpTo w k s).platform = s.platform := rfl
@[simp] theorem commit_platform (n k : Nat) : (commit n k s).platform = s.platform := rfl
@[simp] theorem jumpTo_hostEvents (w : Word) (k : Nat) : (jumpTo w k s).hostEvents = s.hostEvents := rfl
@[simp] theorem commit_hostEvents (n k : Nat) : (commit n k s).hostEvents = s.hostEvents := rfl
@[simp] theorem jumpTo_now (w : Word) (k : Nat) : (jumpTo w k s).now = s.now := rfl
@[simp] theorem commit_now (n k : Nat) : (commit n k s).now = s.now := rfl
@[simp] theorem jumpTo_fatal (w : Word) (k : Nat) : (jumpTo w k s).fatal = s.fatal := rfl
@[simp] theorem commit_fatal (n k : Nat) : (commit n k s).fatal = s.fatal := rfl
@[simp] theorem jumpTo_pc (w : Word) (k : Nat) : (jumpTo w k s).cpu.pc = w := rfl
@[simp] theorem jumpTo_next (w : Word) (k : Nat) : (jumpTo w k s).cpu.next = some (s.now + k) := rfl
@[simp] theorem commit_pc (n k : Nat) : (commit n k s).cpu.pc = s.cpu.pc + BitVec.ofNat 16 n := rfl
@[simp] theorem commit_next (n k : Nat) : (commit n k s).cpu.next = some (s.now + k) := rfl
@[simp] theorem jumpTo_reg (w : Word) (k : Nat) (r : Reg8) : (jumpTo w k s).reg r = s.reg r := by cases r <;> rfl
@[simp] theorem commit_reg (n k : Nat) (r : Reg8) : (commit n k s).reg r = s.reg r := by cases r <;> rfl

end Sys2Proof.Machine
end

