-- ==== Sys2Proof/Laws/Ops.lean ====
section
/-! SUPPORT. What each shared operation above the bus can do, said once: registers and views, the stack, taking an interrupt,
the DMA engine, the wake test, the host's events, and the end of a tick. -/

namespace Sys2Proof.Machine

/-! ## Registers and views -/

theorem reg_setReg (s : State) (r q : Reg8) (v : Byte) : (s.setReg r v).reg q = if q = r then v else s.reg q := by
  cases r <;> cases q <;> rfl

theorem pair_setPair (s : State) (p : Pair) (v : Word) : (s.setPair p v).pair p = v := by
  cases p <;> simp [State.setPair, State.pair, State.bc, State.de, State.hl, State.setBc, State.setDe, State.setHl, State.setSp]

theorem stackPair_setStackPair (s : State) (p : StackPair) (v : Word) :
    (s.setStackPair p v).stackPair p = if p = .af then joinBytes (hi v) (lo v &&& 0xF0#8) else v := by
  cases p <;>
    simp [State.setStackPair, State.stackPair, State.bc, State.de, State.hl, State.af, State.setBc, State.setDe, State.setHl,
      State.setAf]

/-! ## 16-bit accesses and the stack -/

theorem busWrite16_frame (s : State) (a v : Word) : SameCore s (busWrite16 s a v) ∧ SameGlobals s (busWrite16 s a v) := by
  obtain ⟨c1, g1⟩ := busWrite_frame s a (lo v)
  obtain ⟨c2, g2⟩ := busWrite_frame (busWrite s a (lo v)) (a + 1#16) (hi v)
  exact ⟨c1.trans c2, g1.trans g2⟩

/-- A push writes SP, and of the rest of the CPU no more than IF and IE. -/
theorem push16_frame (v : Word) (s : State) :
    SameCore (s.setSp (s.cpu.sp - 2#16)) (push16 v s) ∧ SameGlobals s (push16 v s) := by
  obtain ⟨c, g⟩ := busWrite16_frame (s.setSp (s.cpu.sp - 2#16)) (s.cpu.sp - 2#16) v
  exact ⟨c, g⟩

theorem push16_sp (v : Word) (s : State) : (push16 v s).cpu.sp = s.cpu.sp - 2#16 :=
  (push16_frame v s).1.field Cpu.sp fun _ _ _ => rfl

/-- A pop changes SP and nothing else. -/
theorem popState_spec (s : State) : popState s = { s with cpu := { s.cpu with sp := s.cpu.sp + 2#16 } } := rfl

/-! ## Interrupts -/

theorem lowestSetBit_none (p : Byte) : lowestSetBit p = none ↔ p = 0#8 := by
  revert p
  decide +kernel

/-- The lowest set bit is set, is below 8, and no lower bit is set. -/
theorem lowestSetBit_some (p : Byte) (i : Nat) (h : lowestSetBit p = some i) :
    i < 8 ∧ p.getLsbD i = true ∧ ∀ j < i, p.getLsbD j = false := by
  have key : ∀ q : Byte, ∀ k ∈ lowestSetBit q, k < 8 ∧ q.getLsbD k = true ∧ ∀ j < k, q.getLsbD j = false := by decide +kernel
  exact key p i h

/-- Everything that taking an interrupt can do: a Fatal and nothing else, or the entry of 60_exceptions.md R430. -/
theorem takeInterrupt_spec (i : Nat) (s : State) :
    (5 ≤ i ∧ takeInterrupt i s = { s with fatal := some (.badInterruptIndex i) }) ∨
    (i < 5 ∧ (takeInterrupt i s).cpu.pc = vector i ∧ (takeInterrupt i s).cpu.ime = false ∧
      (takeInterrupt i s).cpu.sp = s.cpu.sp - 2#16 ∧ (takeInterrupt i s).cpu.next = some (s.now + 5) ∧
      SameGlobals s (takeInterrupt i s)) := by
  by_cases h : 5 ≤ i
  · exact .inl ⟨h, by rw [takeInterrupt, if_pos h]; rfl⟩
  · refine .inr ⟨by omega, ?_⟩
    obtain ⟨s1, h1, hs1, hn1⟩ : ∃ s1 : State,
        takeInterrupt i s = jumpTo (vector i) 5 ((push16 s.cpu.pc s1).setIme false) ∧ s1.cpu.sp = s.cpu.sp ∧ SameGlobals s s1 :=
      ⟨_, if_neg h, rfl, rfl, rfl, rfl⟩
    have hsp : (push16 s.cpu.pc s1).cpu.sp = s.cpu.sp - 2#16 := by rw [push16_sp, hs1]
    have hg := hn1.trans (push16_frame s.cpu.pc s1).2
    rw [h1]
    generalize push16 s.cpu.pc s1 = u at hsp hg ⊢
    exact ⟨rfl, rfl, hsp, congrArg (fun n => some (n + 5)) hg.2.1, hg⟩

/-! ## The tick -/

/-- Delivering host events changes IF only. -/
theorem deliverHostEvents_spec (s : State) :
    deliverHostEvents s = { s with cpu := { s.cpu with ifReg := (deliverHostEvents s).cpu.ifReg } } := by
  have key : ∀ (l : List (Nat × Fin 5)) (n : Nat) (t : State),
      l.foldl (fun u e => if e.1 = n then requestInterrupt e.2.val u else u) t =
        { t with
          cpu :=
            { t.cpu with
              ifReg := (l.foldl (fun u e => if e.1 = n then requestInterrupt e.2.val u else u) t).cpu.ifReg } } := by
    intro l n
    induction l with
    | nil => intro t; rfl
    | cons e l ih =>
      intro t
      rw [List.foldl_cons, ih]
      split <;> rfl
  exact key _ _ _

/-- The wake test sets the watermark of a halted CPU, and changes nothing else. -/
theorem wakeTest_spec (s : State) :
    (s.cpu.next = none ∧ pendingBits s ≠ 0#8 ∧ wakeTest s = { s with cpu := { s.cpu with next := some s.now } }) ∨
    ((s.cpu.next ≠ none ∨ pendingBits s = 0#8) ∧ wakeTest s = s) := by
  by_cases h : s.cpu.next = none ∧ pendingBits s ≠ 0#8
  · exact .inl ⟨h.1, h.2, if_pos h⟩
  · refine .inr ⟨?_, if_neg h⟩
    by_cases hn : s.cpu.next = none
    · exact .inr (Classical.byContradiction fun hp => h ⟨hn, hp⟩)
    · exact .inl hn

/-- A step of the DMA engine: one byte into OAM and the cursor, or nothing. -/
theorem dmaStep_spec (s : State) :
    (s.lcd.dmaIdx < 0xA0 ∧
      dmaStep s =
        { s with
          mem :=
            s.mem.write (0xFE00 + s.lcd.dmaIdx) (busRead s (joinBytes s.lcd.dmaSrc (BitVec.ofNat 8 s.lcd.dmaIdx)))
          lcd := { s.lcd with dmaIdx := s.lcd.dmaIdx + 1 } }) ∨
    (0xA0 ≤ s.lcd.dmaIdx ∧ dmaStep s = s) := by
  by_cases h : s.lcd.dmaIdx < 0xA0
  · exact .inl ⟨h, if_pos h⟩
  · exact .inr ⟨by omega, if_neg h⟩

/-- The end of a tick advances `now`, or a Fatal has left it. -/
theorem advanceNow_spec (s : State) :
    (s.fatal = none ∧ advanceNow s = { s with now := s.now + 1 }) ∨ (s.fatal ≠ none ∧ advanceNow s = s) := by
  by_cases h : s.fatal = none
  · exact .inl ⟨h, if_pos h⟩
  · exact .inr ⟨h, if_neg h⟩

end Sys2Proof.Machine
end

