-- ==== Sys2Proof/Laws/PerInstr.lean ====
section
/-! SUPPORT. The statements made of every instruction as syntax, one lemma per constructor. -/

namespace Sys2Proof.Laws.EncodingForm

/-- The four formats (30_encoding.md R114): a first byte that is not the prefix marker and its operand bytes, or the prefix
marker and one byte. -/
inductive Form : List Byte → Prop where
  | op (b : Byte) (h : b ≠ Config.prefixByte) : Form [b]
  | n8 (b n : Byte) (h : b ≠ Config.prefixByte) : Form [b, n]
  | n16 (b l h : Byte) (hb : b ≠ Config.prefixByte) : Form [b, l, h]
  | pfxOp (b : Byte) : Form [Config.prefixByte, b]

/-- The encoding of a whole instruction has one of the four formats. -/
def Statement (i : Instr) : Prop := i.wellFormed = true → Form (encode i)

/-- `LD_r_r`. -/
theorem ldRR (rd : Reg8) (rs : Reg8) : Statement (.ldRR rd rs) := fun _ => .op _ (by cases rd <;> cases rs <;> decide)

/-- `LD_r_n8`. -/
theorem ldRN8 (rd : Reg8) (n : Byte) : Statement (.ldRN8 rd n) := fun _ => .n8 _ _ (by cases rd <;> decide)

/-- `LD_r__HL`. -/
theorem ldRHl (rd : Reg8) : Statement (.ldRHl rd) := fun _ => .op _ (by cases rd <;> decide)

/-- `LD__HL__r`. -/
theorem ldHlR (rs : Reg8) : Statement (.ldHlR rs) := fun _ => .op _ (by cases rs <;> decide)

/-- `LD__HL__n8`. -/
theorem ldHlN8 (n : Byte) : Statement (.ldHlN8 n) := fun _ => .n8 _ _ (by decide)

/-- `LD_A__BC`. -/
theorem ldABc : Statement .ldABc := fun _ => .op _ (by decide)

/-- `LD_A__DE`. -/
theorem ldADe : Statement .ldADe := fun _ => .op _ (by decide)

/-- `LD__BC__A`. -/
theorem ldBcA : Statement .ldBcA := fun _ => .op _ (by decide)

/-- `LD__DE__A`. -/
theorem ldDeA : Statement .ldDeA := fun _ => .op _ (by decide)

/-- `LD_A__HL+`. -/
theorem ldAHlInc : Statement .ldAHlInc := fun _ => .op _ (by decide)

/-- `LD_A__HL-`. -/
theorem ldAHlDec : Statement .ldAHlDec := fun _ => .op _ (by decide)

/-- `LD__HL+__A`. -/
theorem ldHlIncA : Statement .ldHlIncA := fun _ => .op _ (by decide)

/-- `LD__HL-__A`. -/
theorem ldHlDecA : Statement .ldHlDecA := fun _ => .op _ (by decide)

/-- `LD_A__n16`. -/
theorem ldAN16 (n : Word) : Statement (.ldAN16 n) := fun _ => .n16 _ _ _ (by decide)

/-- `LD__n16__A`. -/
theorem ldN16A (n : Word) : Statement (.ldN16A n) := fun _ => .n16 _ _ _ (by decide)

/-- `LDH_A__n8`. -/
theorem ldhAN8 (n : Byte) : Statement (.ldhAN8 n) := fun _ => .n8 _ _ (by decide)

/-- `LDH__n8__A`. -/
theorem ldhN8A (n : Byte) : Statement (.ldhN8A n) := fun _ => .n8 _ _ (by decide)

/-- `LD_A__C`. -/
theorem ldAC : Statement .ldAC := fun _ => .op _ (by decide)

/-- `LD__C__A`. -/
theorem ldCA : Statement .ldCA := fun _ => .op _ (by decide)

/-- `LD_rr_n16`. -/
theorem ldRrN16 (p : Pair) (n : Word) : Statement (.ldRrN16 p n) := fun _ => .n16 _ _ _ (by cases p <;> decide)

/-- `LD__n16__SP`. -/
theorem ldN16Sp (n : Word) : Statement (.ldN16Sp n) := fun _ => .n16 _ _ _ (by decide)

/-- `LD_SP_HL`. -/
theorem ldSpHl : Statement .ldSpHl := fun _ => .op _ (by decide)

/-- `LD_HL_SP+e8`. -/
theorem ldHlSpE8 (e : Byte) : Statement (.ldHlSpE8 e) := fun _ => .n8 _ _ (by decide)

/-- `PUSH_rr`. -/
theorem pushRr (p : StackPair) : Statement (.pushRr p) := fun _ => .op _ (by cases p <;> decide)

/-- `POP_rr`. -/
theorem popRr (p : StackPair) : Statement (.popRr p) := fun _ => .op _ (by cases p <;> decide)

/-- `ADD_A_r`. -/
theorem addAR (rs : Reg8) : Statement (.addAR rs) := fun _ => .op _ (by cases rs <;> decide)

/-- `ADD_A__HL`. -/
theorem addAHl : Statement .addAHl := fun _ => .op _ (by decide)

/-- `ADD_A_n8`. -/
theorem addAN8 (n : Byte) : Statement (.addAN8 n) := fun _ => .n8 _ _ (by decide)

/-- `ADC_A_r`. -/
theorem adcAR (rs : Reg8) : Statement (.adcAR rs) := fun _ => .op _ (by cases rs <;> decide)

/-- `ADC_A__HL`. -/
theorem adcAHl : Statement .adcAHl := fun _ => .op _ (by decide)

/-- `ADC_A_n8`. -/
theorem adcAN8 (n : Byte) : Statement (.adcAN8 n) := fun _ => .n8 _ _ (by decide)

/-- `SUB_A_r`. -/
theorem subAR (rs : Reg8) : Statement (.subAR rs) := fun _ => .op _ (by cases rs <;> decide)

/-- `SUB_A__HL`. -/
theorem subAHl : Statement .subAHl := fun _ => .op _ (by decide)

/-- `SUB_A_n8`. -/
theorem subAN8 (n : Byte) : Statement (.subAN8 n) := fun _ => .n8 _ _ (by decide)

/-- `SBC_A_r`. -/
theorem sbcAR (rs : Reg8) : Statement (.sbcAR rs) := fun _ => .op _ (by cases rs <;> decide)

/-- `SBC_A__HL`. -/
theorem sbcAHl : Statement .sbcAHl := fun _ => .op _ (by decide)

/-- `SBC_A_n8`. -/
theorem sbcAN8 (n : Byte) : Statement (.sbcAN8 n) := fun _ => .n8 _ _ (by decide)

/-- `AND_A_r`. -/
theorem andAR (rs : Reg8) : Statement (.andAR rs) := fun _ => .op _ (by cases rs <;> decide)

/-- `AND_A__HL`. -/
theorem andAHl : Statement .andAHl := fun _ => .op _ (by decide)

/-- `AND_A_n8`. -/
theorem andAN8 (n : Byte) : Statement (.andAN8 n) := fun _ => .n8 _ _ (by decide)

/-- `XOR_A_r`. -/
theorem xorAR (rs : Reg8) : Statement (.xorAR rs) := fun _ => .op _ (by cases rs <;> decide)

/-- `XOR_A__HL`. -/
theorem xorAHl : Statement .xorAHl := fun _ => .op _ (by decide)

/-- `XOR_A_n8`. -/
theorem xorAN8 (n : Byte) : Statement (.xorAN8 n) := fun _ => .n8 _ _ (by decide)

/-- `OR_A_r`. -/
theorem orAR (rs : Reg8) : Statement (.orAR rs) := fun _ => .op _ (by cases rs <;> decide)

/-- `OR_A__HL`. -/
theorem orAHl : Statement .orAHl := fun _ => .op _ (by decide)

/-- `OR_A_n8`. -/
theorem orAN8 (n : Byte) : Statement (.orAN8 n) := fun _ => .n8 _ _ (by decide)

/-- `CP_A_r`. -/
theorem cpAR (rs : Reg8) : Statement (.cpAR rs) := fun _ => .op _ (by cases rs <;> decide)

/-- `CP_A__HL`. -/
theorem cpAHl : Statement .cpAHl := fun _ => .op _ (by decide)

/-- `CP_A_n8`. -/
theorem cpAN8 (n : Byte) : Statement (.cpAN8 n) := fun _ => .n8 _ _ (by decide)

/-- `INC_r`. -/
theorem incR (rd : Reg8) : Statement (.incR rd) := fun _ => .op _ (by cases rd <;> decide)

/-- `INC__HL`. -/
theorem incHl : Statement .incHl := fun _ => .op _ (by decide)

/-- `DEC_r`. -/
theorem decR (rd : Reg8) : Statement (.decR rd) := fun _ => .op _ (by cases rd <;> decide)

/-- `DEC__HL`. -/
theorem decHl : Statement .decHl := fun _ => .op _ (by decide)

/-- `DAA`. -/
theorem daa : Statement .daa := fun _ => .op _ (by decide)

/-- `CPL`. -/
theorem cpl : Statement .cpl := fun _ => .op _ (by decide)

/-- `SCF`. -/
theorem scf : Statement .scf := fun _ => .op _ (by decide)

/-- `CCF`. -/
theorem ccf : Statement .ccf := fun _ => .op _ (by decide)

/-- `ADD_HL_rr`. -/
theorem addHlRr (p : Pair) : Statement (.addHlRr p) := fun _ => .op _ (by cases p <;> decide)

/-- `ADD_SP_e8`. -/
theorem addSpE8 (e : Byte) : Statement (.addSpE8 e) := fun _ => .n8 _ _ (by decide)

/-- `INC_rr`. -/
theorem incRr (p : Pair) : Statement (.incRr p) := fun _ => .op _ (by cases p <;> decide)

/-- `DEC_rr`. -/
theorem decRr (p : Pair) : Statement (.decRr p) := fun _ => .op _ (by cases p <;> decide)

/-- `RLCA`. -/
theorem rlca : Statement .rlca := fun _ => .op _ (by decide)

/-- `RRCA`. -/
theorem rrca : Statement .rrca := fun _ => .op _ (by decide)

/-- `RLA`. -/
theorem rla : Statement .rla := fun _ => .op _ (by decide)

/-- `RRA`. -/
theorem rra : Statement .rra := fun _ => .op _ (by decide)

/-- `RLC_r`. -/
theorem rlcR (rs : Reg8) : Statement (.rlcR rs) := fun _ => .pfxOp _

/-- `RLC__HL`. -/
theorem rlcHl : Statement .rlcHl := fun _ => .pfxOp _

/-- `RRC_r`. -/
theorem rrcR (rs : Reg8) : Statement (.rrcR rs) := fun _ => .pfxOp _

/-- `RRC__HL`. -/
theorem rrcHl : Statement .rrcHl := fun _ => .pfxOp _

/-- `RL_r`. -/
theorem rlR (rs : Reg8) : Statement (.rlR rs) := fun _ => .pfxOp _

/-- `RL__HL`. -/
theorem rlHl : Statement .rlHl := fun _ => .pfxOp _

/-- `RR_r`. -/
theorem rrR (rs : Reg8) : Statement (.rrR rs) := fun _ => .pfxOp _

/-- `RR__HL`. -/
theorem rrHl : Statement .rrHl := fun _ => .pfxOp _

/-- `SLA_r`. -/
theorem slaR (rs : Reg8) : Statement (.slaR rs) := fun _ => .pfxOp _

/-- `SLA__HL`. -/
theorem slaHl : Statement .slaHl := fun _ => .pfxOp _

/-- `SRA_r`. -/
theorem sraR (rs : Reg8) : Statement (.sraR rs) := fun _ => .pfxOp _

/-- `SRA__HL`. -/
theorem sraHl : Statement .sraHl := fun _ => .pfxOp _

/-- `SWAP_r`. -/
theorem swapR (rs : Reg8) : Statement (.swapR rs) := fun _ => .pfxOp _

/-- `SWAP__HL`. -/
theorem swapHl : Statement .swapHl := fun _ => .pfxOp _

/-- `SRL_r`. -/
theorem srlR (rs : Reg8) : Statement (.srlR rs) := fun _ => .pfxOp _

/-- `SRL__HL`. -/
theorem srlHl : Statement .srlHl := fun _ => .pfxOp _

/-- `BIT_b_r`. -/
theorem bitBR (b : Fin 8) (rs : Reg8) : Statement (.bitBR b rs) := fun _ => .pfxOp _

/-- `BIT_b__HL`. -/
theorem bitBHl (b : Fin 8) : Statement (.bitBHl b) := fun _ => .pfxOp _

/-- `RES_b_r`. -/
theorem resBR (b : Fin 8) (rs : Reg8) : Statement (.resBR b rs) := fun _ => .pfxOp _

/-- `RES_b__HL`. -/
theorem resBHl (b : Fin 8) : Statement (.resBHl b) := fun _ => .pfxOp _

/-- `SET_b_r`. -/
theorem setBR (b : Fin 8) (rs : Reg8) : Statement (.setBR b rs) := fun _ => .pfxOp _

/-- `SET_b__HL`. -/
theorem setBHl (b : Fin 8) : Statement (.setBHl b) := fun _ => .pfxOp _

/-- `JP_n16`. -/
theorem jpN16 (n : Word) : Statement (.jpN16 n) := fun _ => .n16 _ _ _ (by decide)

/-- `JP_cc_n16`. -/
theorem jpCcN16 (cc : Cond) (n : Word) : Statement (.jpCcN16 cc n) := fun _ => .n16 _ _ _ (by cases cc <;> decide)

/-- `JP_HL`. -/
theorem jpHl : Statement .jpHl := fun _ => .op _ (by decide)

/-- `JR_e8`. -/
theorem jrE8 (e : Byte) : Statement (.jrE8 e) := fun _ => .n8 _ _ (by decide)

/-- `JR_cc_e8`. -/
theorem jrCcE8 (cc : Cond) (e : Byte) : Statement (.jrCcE8 cc e) := fun _ => .n8 _ _ (by cases cc <;> decide)

/-- `CALL_n16`. -/
theorem callN16 (n : Word) : Statement (.callN16 n) := fun _ => .n16 _ _ _ (by decide)

/-- `CALL_cc_n16`. -/
theorem callCcN16 (cc : Cond) (n : Word) : Statement (.callCcN16 cc n) := fun _ => .n16 _ _ _ (by cases cc <;> decide)

/-- `RET`. -/
theorem ret : Statement .ret := fun _ => .op _ (by decide)

/-- `RET_cc`. -/
theorem retCc (cc : Cond) : Statement (.retCc cc) := fun _ => .op _ (by cases cc <;> decide)

/-- `RST_t`. -/
theorem rstT (t : Fin 8) : Statement (.rstT t) := fun _ => .op _ (by revert t; decide)

/-- `RETI`. -/
theorem reti : Statement .reti := fun _ => .op _ (by decide)

/-- `NOP`. -/
theorem nop : Statement .nop := fun _ => .op _ (by decide)

/-- `HALT`. -/
theorem halt : Statement .halt := fun _ => .op _ (by decide)

/-- `STOP`. -/
theorem stop : Statement .stop := fun _ => .n8 _ _ (by decide)

/-- `DI`. -/
theorem di : Statement .di := fun _ => .op _ (by decide)

/-- `EI`. -/
theorem ei : Statement .ei := fun _ => .op _ (by decide)

/-- `ILLEGAL_D3`. -/
theorem illegalD3 : Statement .illegalD3 := fun _ => .op _ (by decide)

/-- `ILLEGAL_DB`. -/
theorem illegalDB : Statement .illegalDB := fun _ => .op _ (by decide)

/-- `ILLEGAL_DD`. -/
theorem illegalDD : Statement .illegalDD := fun _ => .op _ (by decide)

/-- `ILLEGAL_E3`. -/
theorem illegalE3 : Statement .illegalE3 := fun _ => .op _ (by decide)

/-- `ILLEGAL_E4`. -/
theorem illegalE4 : Statement .illegalE4 := fun _ => .op _ (by decide)

/-- `ILLEGAL_EB`. -/
theorem illegalEB : Statement .illegalEB := fun _ => .op _ (by decide)

/-- `ILLEGAL_EC`. -/
theorem illegalEC : Statement .illegalEC := fun _ => .op _ (by decide)

/-- `ILLEGAL_ED`. -/
theorem illegalED : Statement .illegalED := fun _ => .op _ (by decide)

/-- `ILLEGAL_F4`. -/
theorem illegalF4 : Statement .illegalF4 := fun _ => .op _ (by decide)

/-- `ILLEGAL_FC`. -/
theorem illegalFC : Statement .illegalFC := fun _ => .op _ (by decide)

/-- `ILLEGAL_FD`. -/
theorem illegalFD : Statement .illegalFD := fun _ => .op _ (by decide)

/-- `PREFIX`. -/
theorem pfx : Statement .pfx := nofun

end Sys2Proof.Laws.EncodingForm
end

