-- ==== Sys2Proof/Tests/Slice0.lean ====
section
/-! SUPPORT. Tests of single steps and decodings, their expected results from the spec's rules, examples and
95_test_vectors.md, and for each statement with hypotheses a state and operands that meet them. -/

namespace Sys2Proof.Tests

-- One theorem at a time: each waits in the kernel for the one before it, and each waiting one would hold a thread.
set_option Elab.async false

open Sys2Proof Sys2Proof.Machine Sys2Proof.Spec

/-! ## Well-formedness, decoding, the host's view -/

/-- 30_encoding.md R111: the prefix marker cannot stand alone. -/
theorem test_wellFormed_refuses_prefix : Instr.pfx.wellFormed = false := rfl

/-- 30_encoding.md R114: a byte sequence too short for its first byte, and an empty one, are rejected by name. -/
theorem test_decode_rejects_short :
    decode [] = .error .noBytes ∧ decode [0xC3#8, 0x50#8] = .error (.truncated 0xC3#8) ∧
    decode [0xCB#8] = .error (.truncated 0xCB#8) := by decide +kernel

/-- 41_load8.md: words written out from the encodings. -/
theorem test_words_load8 :
    decodeBytes 0b01111000#8 0#8 0#8 = .ldRR .a .b ∧ decodeBytes 0b00000110#8 0x5A#8 0#8 = .ldRN8 .b 0x5A#8 ∧
    decodeBytes 0b01001110#8 0#8 0#8 = .ldRHl .c ∧ decodeBytes 0b01110010#8 0#8 0#8 = .ldHlR .d ∧
    decodeBytes 0x36#8 0x7E#8 0#8 = .ldHlN8 0x7E#8 ∧ decodeBytes 0x0A#8 0#8 0#8 = .ldABc ∧ decodeBytes 0x1A#8 0#8 0#8 = .ldADe ∧
    decodeBytes 0x02#8 0#8 0#8 = .ldBcA ∧ decodeBytes 0x12#8 0#8 0#8 = .ldDeA ∧ decodeBytes 0x2A#8 0#8 0#8 = .ldAHlInc ∧
    decodeBytes 0x3A#8 0#8 0#8 = .ldAHlDec ∧ decodeBytes 0x22#8 0#8 0#8 = .ldHlIncA ∧ decodeBytes 0x32#8 0#8 0#8 = .ldHlDecA ∧
    decodeBytes 0xFA#8 0x44#8 0xFF#8 = .ldAN16 0xFF44#16 ∧ decodeBytes 0xEA#8 0x00#8 0xC0#8 = .ldN16A 0xC000#16 ∧
    decodeBytes 0xF0#8 0x0F#8 0#8 = .ldhAN8 0x0F#8 ∧ decodeBytes 0xE0#8 0x07#8 0#8 = .ldhN8A 0x07#8 ∧
    decodeBytes 0xF2#8 0#8 0#8 = .ldAC ∧ decodeBytes 0xE2#8 0#8 0#8 = .ldCA := by decide +kernel

/-- 42_load16_stack.md: words written out from the encodings. -/
theorem test_words_load16 :
    decodeBytes 0b00110001#8 0xFE#8 0xFF#8 = .ldRrN16 .sp 0xFFFE#16 ∧ decodeBytes 0x08#8 0x00#8 0xC0#8 = .ldN16Sp 0xC000#16 ∧
    decodeBytes 0xF9#8 0#8 0#8 = .ldSpHl ∧ decodeBytes 0xF8#8 0x02#8 0#8 = .ldHlSpE8 0x02#8 ∧
    decodeBytes 0b11110101#8 0#8 0#8 = .pushRr .af ∧ decodeBytes 0b11010001#8 0#8 0#8 = .popRr .de := by decide +kernel

/-- 43_arith8.md: words written out from the encodings. -/
theorem test_words_arith8 :
    decodeBytes 0b10000000#8 0#8 0#8 = .addAR .b ∧ decodeBytes 0b10000110#8 0#8 0#8 = .addAHl ∧
    decodeBytes 0xC6#8 1#8 0#8 = .addAN8 1#8 ∧ decodeBytes 0b10001001#8 0#8 0#8 = .adcAR .c ∧
    decodeBytes 0b10001110#8 0#8 0#8 = .adcAHl ∧ decodeBytes 0xCE#8 1#8 0#8 = .adcAN8 1#8 ∧
    decodeBytes 0b10010010#8 0#8 0#8 = .subAR .d ∧ decodeBytes 0b10010110#8 0#8 0#8 = .subAHl ∧
    decodeBytes 0xD6#8 1#8 0#8 = .subAN8 1#8 ∧ decodeBytes 0b10011011#8 0#8 0#8 = .sbcAR .e ∧
    decodeBytes 0b10011110#8 0#8 0#8 = .sbcAHl ∧ decodeBytes 0xDE#8 1#8 0#8 = .sbcAN8 1#8 ∧
    decodeBytes 0b10100100#8 0#8 0#8 = .andAR .h ∧ decodeBytes 0b10100110#8 0#8 0#8 = .andAHl ∧
    decodeBytes 0xE6#8 1#8 0#8 = .andAN8 1#8 ∧ decodeBytes 0b10101101#8 0#8 0#8 = .xorAR .l ∧
    decodeBytes 0b10101110#8 0#8 0#8 = .xorAHl ∧ decodeBytes 0xEE#8 1#8 0#8 = .xorAN8 1#8 ∧
    decodeBytes 0b10110111#8 0#8 0#8 = .orAR .a ∧ decodeBytes 0b10110110#8 0#8 0#8 = .orAHl ∧
    decodeBytes 0xF6#8 1#8 0#8 = .orAN8 1#8 ∧ decodeBytes 0b10111000#8 0#8 0#8 = .cpAR .b ∧
    decodeBytes 0b10111110#8 0#8 0#8 = .cpAHl ∧ decodeBytes 0xFE#8 1#8 0#8 = .cpAN8 1#8 ∧
    decodeBytes 0b00111100#8 0#8 0#8 = .incR .a ∧ decodeBytes 0x34#8 0#8 0#8 = .incHl ∧
    decodeBytes 0b00000101#8 0#8 0#8 = .decR .b ∧ decodeBytes 0x35#8 0#8 0#8 = .decHl ∧ decodeBytes 0x27#8 0#8 0#8 = .daa ∧
    decodeBytes 0x2F#8 0#8 0#8 = .cpl ∧ decodeBytes 0x37#8 0#8 0#8 = .scf ∧ decodeBytes 0x3F#8 0#8 0#8 = .ccf := by
  decide +kernel

/-- 44_arith16.md and 45_rotate_shift_bit.md: words written out from the encodings. -/
theorem test_words_arith16_and_bits :
    decodeBytes 0b00111001#8 0#8 0#8 = .addHlRr .sp ∧ decodeBytes 0xE8#8 0xFF#8 0#8 = .addSpE8 0xFF#8 ∧
    decodeBytes 0b00010011#8 0#8 0#8 = .incRr .de ∧ decodeBytes 0b00101011#8 0#8 0#8 = .decRr .hl ∧
    decodeBytes 0x07#8 0#8 0#8 = .rlca ∧ decodeBytes 0x0F#8 0#8 0#8 = .rrca ∧ decodeBytes 0x17#8 0#8 0#8 = .rla ∧
    decodeBytes 0x1F#8 0#8 0#8 = .rra ∧ decodeBytes 0xCB#8 0b00000000#8 0#8 = .rlcR .b ∧
    decodeBytes 0xCB#8 0b00000110#8 0#8 = .rlcHl ∧ decodeBytes 0xCB#8 0b00001001#8 0#8 = .rrcR .c ∧
    decodeBytes 0xCB#8 0b00001110#8 0#8 = .rrcHl ∧ decodeBytes 0xCB#8 0b00010010#8 0#8 = .rlR .d ∧
    decodeBytes 0xCB#8 0b00010110#8 0#8 = .rlHl ∧ decodeBytes 0xCB#8 0b00011011#8 0#8 = .rrR .e ∧
    decodeBytes 0xCB#8 0b00011110#8 0#8 = .rrHl ∧ decodeBytes 0xCB#8 0b00100100#8 0#8 = .slaR .h ∧
    decodeBytes 0xCB#8 0b00100110#8 0#8 = .slaHl ∧ decodeBytes 0xCB#8 0b00101101#8 0#8 = .sraR .l ∧
    decodeBytes 0xCB#8 0b00101110#8 0#8 = .sraHl ∧ decodeBytes 0xCB#8 0b00110111#8 0#8 = .swapR .a ∧
    decodeBytes 0xCB#8 0b00110110#8 0#8 = .swapHl ∧ decodeBytes 0xCB#8 0b00111000#8 0#8 = .srlR .b ∧
    decodeBytes 0xCB#8 0b00111110#8 0#8 = .srlHl ∧ decodeBytes 0xCB#8 0b01100101#8 0#8 = .bitBR 4 .l ∧
    decodeBytes 0xCB#8 0b01111110#8 0#8 = .bitBHl 7 ∧ decodeBytes 0xCB#8 0b10111111#8 0#8 = .resBR 7 .a ∧
    decodeBytes 0xCB#8 0b10011110#8 0#8 = .resBHl 3 ∧ decodeBytes 0xCB#8 0b11001011#8 0#8 = .setBR 1 .e ∧
    decodeBytes 0xCB#8 0b11000110#8 0#8 = .setBHl 0 := by decide +kernel

/-- 46_control.md and 47_system.md: words written out from the encodings. -/
theorem test_words_control_and_system :
    decodeBytes 0xC3#8 0x50#8 0x01#8 = .jpN16 0x0150#16 ∧ decodeBytes 0b11001010#8 0x00#8 0x02#8 = .jpCcN16 .z 0x0200#16 ∧
    decodeBytes 0xE9#8 0#8 0#8 = .jpHl ∧ decodeBytes 0x18#8 0xFE#8 0#8 = .jrE8 0xFE#8 ∧
    decodeBytes 0b00110000#8 5#8 0#8 = .jrCcE8 .nc 5#8 ∧ decodeBytes 0xCD#8 0x00#8 0x02#8 = .callN16 0x0200#16 ∧
    decodeBytes 0b11011100#8 0x00#8 0x02#8 = .callCcN16 .c 0x0200#16 ∧ decodeBytes 0xC9#8 0#8 0#8 = .ret ∧
    decodeBytes 0b11000000#8 0#8 0#8 = .retCc .nz ∧ decodeBytes 0b11101111#8 0#8 0#8 = .rstT 5 ∧
    decodeBytes 0xD9#8 0#8 0#8 = .reti ∧ decodeBytes 0x00#8 0#8 0#8 = .nop ∧ decodeBytes 0x76#8 0#8 0#8 = .halt ∧
    decodeBytes 0x10#8 0x99#8 0#8 = .stop ∧ decodeBytes 0xF3#8 0#8 0#8 = .di ∧ decodeBytes 0xFB#8 0#8 0#8 = .ei ∧
    decodeBytes 0xD3#8 0#8 0#8 = .illegalD3 ∧ decodeBytes 0xFD#8 0#8 0#8 = .illegalFD := by decide +kernel

/-- The host's numbering: the first byte in the low bits, the bits above `nbits` zero. -/
theorem test_decodeTableWord :
    decodeTableWord 8 0x76 = some .halt ∧ decodeTableWord 16 0x423E = some (.ldRN8 .a 0x42#8) ∧
    decodeTableWord 16 0x37CB = some (.swapR .a) ∧ decodeTableWord 8 0xFFC3 = some (.jpN16 0#16) := by decide +kernel

/-- The very next step runs the word. -/
theorem test_withFetchWord :
    (match step (State.reset.withFetchWord 8 0x3C) with
      | .next t => some (t.cpu.a, t.cpu.pc, t.now)
      | _ => none) = some (0x01#8, 0x0001#16, 1) := by decide +kernel

/-- The storage list stays canonical: a write of 0x00 removes the entry, entries stand by rising address. -/
theorem test_memory_canonical :
    let m := Memory.write (Memory.write (Memory.write [] 0xC001 5#8) 0xC000 6#8) 0xC002 7#8
    m.wf = true ∧ m.read 0xC001 = 5#8 ∧ m.write 0xC001 0#8 = Memory.write (Memory.write [] 0xC002 7#8) 0xC000 6#8 := by
  decide +kernel

/-! ## One instruction, one step -/

/-- The reset state with PC in the work RAM, as the vectors' conventions have it. -/
def codeBase : State := State.reset.setPc 0xC000#16

/-- One step with these bytes at PC. -/
def ran (bytes : List Byte) (s : State) : Option State :=
  match step (placeBytes s.cpu.pc bytes s) with
  | .next t => some t
  | _ => none

/-- R170. -/
theorem test_ldRR :
    (ran [0x78#8] (codeBase.setReg .b 0x5A#8)).map
        (fun t => (t.cpu.a, t.cpu.pc, t.cpu.next)) =
      some (0x5A#8, 0xC001#16, some 1) := by
  decide +kernel

/-- R171. -/
theorem test_ldRN8 :
    (ran [0x3E#8, 0x42#8] codeBase).map
        (fun t => (t.cpu.a, t.cpu.pc, t.cpu.next)) =
      some (0x42#8, 0xC002#16, some 2) := by
  decide +kernel

/-- R172. -/
theorem test_ldRHl_old_hl :
    (ran [0x66#8] (placeBytes 0xC100#16 [0x12#8] (codeBase.setHl 0xC100#16))).map
        (fun t => (t.hl, t.cpu.next)) =
      some (0x1200#16, some 2) := by
  decide +kernel

/-- R173. -/
theorem test_ldHlR_own_half :
    (ran [0x74#8] (codeBase.setHl 0xC234#16)).map
        (fun t => (busRead t 0xC234#16, t.cpu.next)) =
      some (0xC2#8, some 2) := by
  decide +kernel

/-- R174. -/
theorem test_ldHlN8 :
    (ran [0x36#8, 0xFF#8] (codeBase.setHl 0xFF80#16)).map
        (fun t => (busRead t 0xFF80#16, t.cpu.next)) =
      some (0xFF#8, some 3) := by
  decide +kernel

/-- R176, R90. -/
theorem test_ldADe_echo :
    (ran [0x1A#8] (placeBytes 0xC300#16 [0x42#8] (codeBase.setDe 0xE300#16))).map
        (fun t => t.cpu.a) =
      some 0x42#8 := by
  decide +kernel

/-- R177. -/
theorem test_ldBcA :
    (ran [0x02#8] ((codeBase.setBc 0x8000#16).setReg .a 0xAB#8)).map
        (fun t => busRead t 0x8000#16) =
      some 0xAB#8 := by
  decide +kernel

/-- R179. -/
theorem test_ldAHlInc_wrap :
    (ran [0x2A#8] (codeBase.setHl 0xFFFF#16)).map
        (fun t => (t.cpu.a, t.hl, t.cpu.next)) =
      some (0x00#8, 0x0000#16, some 2) := by
  decide +kernel

/-- R182. -/
theorem test_ldHlDecA :
    (ran [0x32#8] ((codeBase.setHl 0x9FFF#16).setReg .a 0x5C#8)).map
        (fun t => (busRead t 0x9FFF#16, t.hl)) =
      some (0x5C#8, 0x9FFE#16) := by
  decide +kernel

/-- R183. -/
theorem test_ldAN16_order :
    (ran [0xFA#8, 0x10#8, 0xC1#8] (placeBytes 0xC110#16 [0x77#8] codeBase)).map
        (fun t => (t.cpu.a, t.cpu.pc, t.cpu.next)) =
      some (0x77#8, 0xC003#16, some 4) := by
  decide +kernel

/-- R184. -/
theorem test_ldN16A :
    (ran [0xEA#8, 0x00#8, 0xC1#8] (codeBase.setReg .a 0x37#8)).map
        (fun t => (busRead t 0xC100#16, t.cpu.next)) =
      some (0x37#8, some 4) := by
  decide +kernel

/-- R186. -/
theorem test_ldhN8A_tac :
    (ran [0xE0#8, 0x07#8] (codeBase.setReg .a 0x05#8)).map
        (fun t => (t.timer.tac, t.cpu.next)) =
      some (0x05#8, some 3) := by
  decide +kernel

/-- R188. -/
theorem test_ldCA_bgp :
    (ran [0xE2#8] ((codeBase.setReg .c 0x47#8).setReg .a 0xE4#8)).map
        (fun t => (t.lcd.bgp, t.cpu.next)) =
      some (0xE4#8, some 2) := by
  decide +kernel

/-- R200. -/
theorem test_ldRrN16 :
    (ran [0x31#8, 0xFE#8, 0xFF#8] codeBase).map
        (fun t => (t.cpu.sp, t.cpu.next)) =
      some (0xFFFE#16, some 3) := by
  decide +kernel

/-- R201. -/
theorem test_ldN16Sp :
    (ran [0x08#8, 0x00#8, 0xC1#8] (codeBase.setSp 0xFFF8#16)).map
        (fun t => (busRead t 0xC100#16, busRead t 0xC101#16, t.cpu.next)) =
      some (0xF8#8, 0xFF#8, some 5) := by
  decide +kernel

/-- R203. -/
theorem test_ldHlSpE8_negative :
    (ran [0xF8#8, 0xFF#8] ((codeBase.setSp 0x0001#16).setF 0xC0#8)).map
        (fun t => (t.hl, t.cpu.sp, t.cpu.f)) =
      some (0x0000#16, 0x0001#16, 0x30#8) := by
  decide +kernel

/-- R204. -/
theorem test_pushRr :
    (ran [0xC5#8] ((codeBase.setBc 0x1234#16).setSp 0xFFFE#16)).map
        (fun t => (t.cpu.sp, busRead t 0xFFFC#16, busRead t 0xFFFD#16, t.cpu.next)) =
      some (0xFFFC#16, 0x34#8, 0x12#8, some 4) := by
  decide +kernel

/-- R205. -/
theorem test_popAf_masks :
    (ran [0xF1#8] (placeBytes 0xFFFD#16 [0x12#8] (placeBytes 0xFFFC#16 [0x5F#8] (codeBase.setSp 0xFFFC#16)))).map
        (fun t => (t.cpu.a, t.cpu.f, t.cpu.sp, t.cpu.next)) =
      some (0x12#8, 0x50#8, 0xFFFE#16, some 3) := by
  decide +kernel

/-- R215, S7. -/
theorem test_addAR :
    (ran [0x80#8] ((codeBase.setReg .a 0x0F#8).setReg .b 0x01#8)).map
        (fun t => (t.cpu.a, t.cpu.f, t.cpu.next)) =
      some (0x10#8, 0x20#8, some 1) := by
  decide +kernel

/-- R220. -/
theorem test_adcAN8 :
    (ran [0xCE#8, 0x3B#8] ((codeBase.setReg .a 0xE1#8).setF 0x10#8)).map
        (fun t => (t.cpu.a, t.cpu.f, t.cpu.next)) =
      some (0x1D#8, 0x10#8, some 2) := by
  decide +kernel

/-- R222. -/
theorem test_subAHl :
    (ran [0x96#8] (placeBytes 0xC100#16 [0x40#8] ((codeBase.setReg .a 0x3E#8).setHl 0xC100#16))).map
        (fun t => (t.cpu.a, t.cpu.f, t.cpu.next)) =
      some (0xFE#8, 0x50#8, some 2) := by
  decide +kernel

/-- R224. -/
theorem test_sbcAA_borrow :
    (ran [0x9F#8] ((codeBase.setReg .a 0x33#8).setF 0x10#8)).map
        (fun t => (t.cpu.a, t.cpu.f)) =
      some (0xFF#8, 0x70#8) := by
  decide +kernel

/-- R227. -/
theorem test_andAR :
    (ran [0xA1#8] ((codeBase.setReg .a 0x5A#8).setReg .c 0x3F#8)).map
        (fun t => (t.cpu.a, t.cpu.f)) =
      some (0x1A#8, 0x20#8) := by
  decide +kernel

/-- R230. -/
theorem test_xorAA :
    (ran [0xAF#8] ((codeBase.setReg .a 0x77#8).setF 0x70#8)).map
        (fun t => (t.cpu.a, t.cpu.f)) =
      some (0x00#8, 0x80#8) := by
  decide +kernel

/-- R234, R235. -/
theorem test_orAN8 :
    (ran [0xF6#8, 0x0F#8] ((codeBase.setReg .a 0x5A#8).setF 0xF0#8)).map
        (fun t => (t.cpu.a, t.cpu.f)) =
      some (0x5F#8, 0x00#8) := by
  decide +kernel

/-- R236. -/
theorem test_cpAR :
    (ran [0xB8#8] ((codeBase.setReg .a 0x3C#8).setReg .b 0x2F#8)).map
        (fun t => (t.cpu.a, t.cpu.f)) =
      some (0x3C#8, 0x60#8) := by
  decide +kernel

/-- R239, S6. -/
theorem test_incR_wrap :
    (ran [0x3C#8] ((codeBase.setReg .a 0xFF#8).setF 0x10#8)).map
        (fun t => (t.cpu.a, t.cpu.f, t.cpu.next)) =
      some (0x00#8, 0xB0#8, some 1) := by
  decide +kernel

/-- R240: an unmapped address. -/
theorem test_incHl_rom :
    (ran [0x34#8] ((codeBase.setHl 0xA000#16).setF 0x00#8)).map
        (fun t => (busRead t 0xA000#16, t.cpu.f, t.cpu.next)) =
      some (0xFF#8, 0xA0#8, some 3) := by
  decide +kernel

/-- R242. -/
theorem test_decHl :
    (ran [0x35#8] ((codeBase.setHl 0xC100#16).setF 0x00#8)).map
        (fun t => (busRead t 0xC100#16, t.cpu.f, t.cpu.next)) =
      some (0xFF#8, 0x60#8, some 3) := by
  decide +kernel

/-- R244, R145. -/
theorem test_daa :
    (ran [0x27#8] (codeBase.setReg .a 0x7D#8)).map
        (fun t => (t.cpu.a, t.cpu.f)) =
      some (0x83#8, 0x00#8) := by
  decide +kernel

/-- R245. -/
theorem test_cpl :
    (ran [0x2F#8] ((codeBase.setReg .a 0x35#8).setF 0x90#8)).map
        (fun t => (t.cpu.a, t.cpu.f)) =
      some (0xCA#8, 0xF0#8) := by
  decide +kernel

/-- R247. -/
theorem test_ccf :
    (ran [0x3F#8] (codeBase.setF 0x90#8)).map
        (fun t => t.cpu.f) =
      some 0x80#8 := by
  decide +kernel

/-- R246. -/
theorem test_scf :
    (ran [0x37#8] (codeBase.setF 0x80#8)).map
        (fun t => t.cpu.f) =
      some 0x90#8 := by
  decide +kernel

/-- R250. -/
theorem test_addHlHl :
    (ran [0x29#8] ((codeBase.setHl 0x8A23#16).setF 0x80#8)).map
        (fun t => (t.hl, t.cpu.f, t.cpu.next)) =
      some (0x1446#16, 0xB0#8, some 2) := by
  decide +kernel

/-- R251. -/
theorem test_addSpE8 :
    (ran [0xE8#8, 0x02#8] ((codeBase.setSp 0xFFF8#16).setF 0xF0#8)).map
        (fun t => (t.cpu.sp, t.cpu.f, t.cpu.next)) =
      some (0xFFFA#16, 0x00#8, some 4) := by
  decide +kernel

/-- R253. -/
theorem test_decRr_no_flags :
    (ran [0x0B#8] ((codeBase.setBc 0x0100#16).setF 0xF0#8)).map
        (fun t => (t.bc, t.cpu.f, t.cpu.next)) =
      some (0x00FF#16, 0xF0#8, some 2) := by
  decide +kernel

/-- R255. -/
theorem test_rlca :
    (ran [0x07#8] (codeBase.setReg .a 0x85#8)).map
        (fun t => (t.cpu.a, t.cpu.f)) =
      some (0x0B#8, 0x10#8) := by
  decide +kernel

/-- R258. -/
theorem test_rra_zero_keeps_z_clear :
    (ran [0x1F#8] ((codeBase.setReg .a 0x01#8).setF 0x80#8)).map
        (fun t => (t.cpu.a, t.cpu.f)) =
      some (0x00#8, 0x10#8) := by
  decide +kernel

/-- R261. -/
theorem test_rrcR :
    (ran [0xCB#8, 0x09#8] (codeBase.setReg .c 0x01#8)).map
        (fun t => (t.reg .c, t.cpu.f, t.cpu.pc, t.cpu.next)) =
      some (0x80#8, 0x10#8, 0xC002#16, some 2) := by
  decide +kernel

/-- R264. -/
theorem test_rlHl :
    (ran [0xCB#8, 0x16#8] (placeBytes 0xC100#16 [0x11#8] (codeBase.setHl 0xC100#16))).map
        (fun t => (busRead t 0xC100#16, t.cpu.f, t.cpu.next)) =
      some (0x22#8, 0x00#8, some 4) := by
  decide +kernel

/-- R269. -/
theorem test_sraR :
    (ran [0xCB#8, 0x2F#8] (codeBase.setReg .a 0x8A#8)).map
        (fun t => (t.cpu.a, t.cpu.f)) =
      some (0xC5#8, 0x00#8) := by
  decide +kernel

/-- R271. -/
theorem test_swapR :
    (ran [0xCB#8, 0x37#8] ((codeBase.setReg .a 0xF0#8).setF 0x10#8)).map
        (fun t => (t.cpu.a, t.cpu.f)) =
      some (0x0F#8, 0x00#8) := by
  decide +kernel

/-- R274. -/
theorem test_srlHl :
    (ran [0xCB#8, 0x3E#8] (placeBytes 0xC100#16 [0xFF#8] (codeBase.setHl 0xC100#16))).map
        (fun t => (busRead t 0xC100#16, t.cpu.f)) =
      some (0x7F#8, 0x10#8) := by
  decide +kernel

/-- R275. -/
theorem test_bitBR :
    (ran [0xCB#8, 0x65#8] ((codeBase.setReg .l 0xEF#8).setF 0x10#8)).map
        (fun t => (t.cpu.f, t.cpu.next)) =
      some (0xB0#8, some 2) := by
  decide +kernel

/-- R276. -/
theorem test_bitBHl :
    (ran [0xCB#8, 0x46#8] (placeBytes 0xC100#16 [0xFE#8] (codeBase.setHl 0xC100#16))).map
        (fun t => (t.cpu.f, t.cpu.next)) =
      some (0xA0#8, some 3) := by
  decide +kernel

/-- R278. -/
theorem test_resBHl :
    (ran [0xCB#8, 0x9E#8] ((placeBytes 0xC100#16 [0xFF#8] (codeBase.setHl 0xC100#16)).setF 0xF0#8)).map
        (fun t => (busRead t 0xC100#16, t.cpu.f, t.cpu.next)) =
      some (0xF7#8, 0xF0#8, some 4) := by
  decide +kernel

/-- R279. -/
theorem test_setBR :
    (ran [0xCB#8, 0xD8#8] (codeBase.setReg .b 0x80#8)).map
        (fun t => (t.reg .b, t.cpu.next)) =
      some (0x88#8, some 2) := by
  decide +kernel

/-- R280, R353. -/
theorem test_setBHl_powers_on :
    (ran [0xCB#8, 0xFE#8] (codeBase.setHl 0xFF40#16)).map
        (fun t => (t.lcd.lcdc, t.lcd.next, t.cpu.next)) =
      some (0x80#8, none, some 4) := by
  decide +kernel

/-- R281. -/
theorem test_jpN16 :
    (ran [0xC3#8, 0x50#8, 0x01#8] codeBase).map
        (fun t => (t.cpu.pc, t.cpu.next)) =
      some (0x0150#16, some 4) := by
  decide +kernel

/-- R285. -/
theorem test_jrCcE8_taken :
    (ran [0x20#8, 0xFB#8] codeBase).map
        (fun t => (t.cpu.pc, t.cpu.next)) =
      some (0xBFFD#16, some 3) := by
  decide +kernel

/-- R285. -/
theorem test_jrCcE8_not_taken :
    (ran [0x20#8, 0xFB#8] (codeBase.setF 0x80#8)).map
        (fun t => (t.cpu.pc, t.cpu.next)) =
      some (0xC002#16, some 2) := by
  decide +kernel

/-- R286. -/
theorem test_callN16 :
    (ran [0xCD#8, 0x00#8, 0x02#8] (codeBase.setSp 0xFFFE#16)).map
        (fun t => (t.cpu.pc, t.cpu.sp, busRead t 0xFFFC#16, busRead t 0xFFFD#16, t.cpu.next)) =
      some (0x0200#16, 0xFFFC#16, 0x03#8, 0xC0#8, some 6) := by
  decide +kernel

/-- R289. -/
theorem test_retCc_taken :
    (ran [0xC8#8] (placeBytes 0xFFFD#16 [0x01#8] (placeBytes 0xFFFC#16 [0x53#8] ((codeBase.setSp 0xFFFC#16).setF 0x80#8)))).map
        (fun t => (t.cpu.pc, t.cpu.sp, t.cpu.next)) =
      some (0x0153#16, 0xFFFE#16, some 5) := by
  decide +kernel

/-- R290. -/
theorem test_rstT :
    (ran [0xEF#8] (codeBase.setSp 0xD000#16)).map
        (fun t => (t.cpu.pc, busRead t 0xCFFE#16, busRead t 0xCFFF#16, t.cpu.next)) =
      some (0x0028#16, 0x01#8, 0xC0#8, some 4) := by
  decide +kernel

/-- R291. -/
theorem test_reti :
    (ran [0xD9#8] (placeBytes 0xFFFD#16 [0x01#8] (placeBytes 0xFFFC#16 [0x53#8] (codeBase.setSp 0xFFFC#16)))).map
        (fun t => (t.cpu.pc, t.cpu.ime, t.cpu.next)) =
      some (0x0153#16, true, some 4) := by
  decide +kernel

/-- R301. -/
theorem test_halt :
    (ran [0x76#8] codeBase).map
        (fun t => (t.cpu.pc, t.cpu.next, t.now)) =
      some (0xC001#16, none, 1) := by
  decide +kernel

/-- R302, R440. -/
theorem test_stop :
    (ran [0x10#8, 0x00#8] codeBase).map
        (fun t => (t.fatal, t.cpu.pc, t.now, t.cpu.next)) =
      some (some .stop, 0xC000#16, 0, some 0) := by
  decide +kernel

/-- R305. -/
theorem test_illegalDD :
    (ran [0xDD#8] codeBase).map
        (fun t => (t.fatal, t.cpu.pc, t.now)) =
      some (some (.illegalOpcode 0xDD#8), 0xC000#16, 0) := by
  decide +kernel

/-- R304. -/
theorem test_ei_at_once :
    (ran [0xFB#8] codeBase).map
        (fun t => (t.cpu.ime, t.cpu.pc, t.cpu.next)) =
      some (true, 0xC001#16, some 1) := by
  decide +kernel

/-- R303. -/
theorem test_di :
    (ran [0xF3#8] (codeBase.setIme true)).map
        (fun t => t.cpu.ime) =
      some false := by
  decide +kernel

/-! ## The tick -/

/-- One step from a state. -/
def stepped (s : State) : Option State :=
  match step s with
  | .next t => some t
  | _ => none

/-- 60_exceptions.md R430, R431: vblank is served before the timer; IF[0] is cleared, the next PC pushed, 5 cycles charged. -/
theorem test_service_lowest :
    (stepped { codeBase with cpu := { codeBase.cpu with ime := true, ie := 0x05#8, ifReg := 0x05#8, sp := 0xD000#16 } }).map
        (fun t => ((t.cpu.pc, t.cpu.sp, t.cpu.ifReg), (t.cpu.ime, busRead16 t 0xCFFE#16, t.cpu.next))) =
      some ((0x0040#16, 0xCFFE#16, 0x04#8), (false, 0xC000#16, some 5)) := by decide +kernel

/-- 60_exceptions.md R436(a): a push over IF comes after the clearing of the bit, so the pushed byte wins. -/
theorem test_service_push_over_if :
    (stepped { codeBase with cpu := { codeBase.cpu with ime := true, ie := 0x02#8, ifReg := 0x02#8, sp := 0xFF11#16 } }).map
        (fun t => (t.cpu.pc, t.cpu.ifReg)) = some (0x0048#16, 0x00#8) := by decide +kernel

/-- 60_exceptions.md R445: bit 5 alone pending with IME set is fatal, and PC stays. -/
theorem test_bad_interrupt_index :
    (stepped { codeBase with cpu := { codeBase.cpu with ime := true, ie := 0x60#8, ifReg := 0x60#8 } }).map
        (fun t => (t.fatal, t.cpu.pc, t.now)) = some (some (.badInterruptIndex 5), 0xC000#16, 0) := by decide +kernel

/-- 60_exceptions.md R428, 47_system.md R301: a halted CPU wakes with IME clear and runs the next instruction at that tick. -/
theorem test_halt_wakes_without_ime :
    (ran [0x3C#8] { codeBase with cpu := { codeBase.cpu with next := none, ie := 0x04#8, ifReg := 0x04#8 } }).map
        (fun t => (t.cpu.a, t.cpu.ifReg, t.cpu.next)) = some (0x01#8, 0x04#8, some 1) := by decide +kernel

/-- 60_exceptions.md R427: a host event of the coming cycle is seen by the CPU at that cycle. -/
theorem test_host_event :
    (stepped
        { codeBase with hostEvents := [(0, 4), (1, 3)], cpu := { codeBase.cpu with ime := true, ie := 0x1F#8 } }).map
        (fun t => (t.cpu.pc, t.cpu.ifReg)) = some (0x0060#16, 0x00#8) := by decide +kernel

/-- 48_timer.md R324: overflow reloads TIMA from TMA and requests interrupt 2 in the same tick. -/
theorem test_timer_overflow :
    (timerTick { State.reset with timer := ⟨0x000C#16, 0xFF#8, 0x23#8, 0x05#8⟩ }).timer = ⟨0x0010#16, 0x23#8, 0x23#8, 0x05#8⟩ ∧
    (timerTick { State.reset with timer := ⟨0x000C#16, 0xFF#8, 0x23#8, 0x05#8⟩ }).cpu.ifReg = 0x04#8 := by decide +kernel

/-- 48_timer.md R327, 95_test_vectors.md S5: a write to DIV with the selected bit set increments TIMA at once. -/
theorem test_div_write_glitch :
    (busWrite { State.reset with timer := ⟨0x0200#16, 0x00#8, 0x00#8, 0x04#8⟩ } 0xFF04#16 0x77#8).timer =
      ⟨0#16, 0x01#8, 0#8, 0x04#8⟩ ∧
    (busWrite { State.reset with timer := ⟨0x01FC#16, 0x00#8, 0x00#8, 0x04#8⟩ } 0xFF04#16 0x00#8).timer.tima = 0x00#8 := by
  decide +kernel

/-- 49_display.md R365, R344: a display enabled before tick 0 is in mode 2 of line 0 after it, its next event at tick 20. -/
theorem test_power_up :
    (stepped { State.reset with lcd := { State.reset.lcd with lcdc := 0x80#8 } }).map
        (fun t => (t.lcd.ly, t.lcd.stat, t.lcd.next)) = some (0x00#8, 0x06#8, some 20) := by decide +kernel

/-- 49_display.md R363: one byte of the page each tick, by the bus. -/
theorem test_dma_step :
    let s := placeBytes 0xC09F#16 [0x5A#8] { State.reset with lcd := { State.reset.lcd with dmaSrc := 0xC0#8, dmaIdx := 0x9F } }
    busRead (dmaStep s) 0xFE9F#16 = 0x5A#8 ∧ (dmaStep s).lcd.dmaIdx = 0xA0 ∧ dmaStep (dmaStep s) = dmaStep s := by
  decide +kernel

/-- 95_test_vectors.md S9: of two overlapping sprites the one with the lower X shows, whatever its index. -/
theorem test_sprite_priority :
    let m := (placeBytes 0xFE00#16 [16#8, 20#8, 2#8, 0#8, 16#8, 18#8, 1#8, 0#8]
      (placeBytes 0x8010#16 [0xFF#8, 0x00#8] (placeBytes 0x8020#16 [0x00#8, 0xFF#8] State.reset))).mem
    ((composeLine { State.reset.lcd with lcdc := 0x82#8, obp0 := 0xE4#8 } m 0).take 21).drop 9 =
      [0#2, 1#2, 1#2, 1#2, 1#2, 1#2, 1#2, 1#2, 1#2, 2#2, 2#2, 0#2] := by decide +kernel

/-- 60_exceptions.md R441: the two preconditions of the host interface are refused. -/
theorem test_host_preconditions :
    (match runUntil 0 { State.reset with now := 1 } with | .refused r => some r | _ => none) = some .runUntilBehindNow ∧
    (match hostRequestInterrupt 5 State.reset with | .refused r => some r | _ => none) = some .hostInterruptIndex := by
  decide +kernel

/-! ## The platform (00_scope.md R8) -/

/-- The start of a run with the platform given. -/
def attachedTo (platform : List PlatformComponent) : State := State.start .reset platform [] [0x11#8]

/-- A memory ahead of the cartridge. -/
def withRam : State := attachedTo [.memory 0xA000 0xBFFF true [], .cartridge]

/-- 20_memory.md R73: the first component in attachment order answers, the core ahead of every other. -/
theorem test_platform_order :
    busRead (attachedTo [.memory 0 0xFF false [(0, 0x42#8)], .cartridge]) 0x0000#16 = 0x42#8 ∧
    busRead (attachedTo [.cartridge, .memory 0 0xFF false [(0, 0x42#8)]]) 0x0000#16 = 0x11#8 ∧
    busRead (attachedTo [.memory 0 0xFFFF false [(0x8000, 0x42#8)]]) 0x8000#16 = 0x00#8 ∧
    busRead (attachedTo []) 0x0000#16 = 0xFF#8 ∧ busRead (attachedTo []) 0xC000#16 = 0xFF#8 := by decide +kernel

/-- 20_memory.md R74: every component gets a write, and a component may ignore it. -/
theorem test_platform_write :
    busRead (busWrite withRam 0xA000#16 0x5A#8) 0xA000#16 = 0x5A#8 ∧
    busRead (busWrite State.reset 0xA000#16 0x5A#8) 0xA000#16 = 0xFF#8 ∧
    busRead (busWrite (attachedTo [.memory 0xA000 0xBFFF false []]) 0xA000#16 0x5A#8) 0xA000#16 = 0x00#8 ∧
    (busWrite (attachedTo [.memory 0x8000 0x8000 true []]) 0x8000#16 0x5A#8).platform =
      [.memory 0x8000 0x8000 true [(0x8000, 0x5A#8)]] := by decide +kernel

/-- 00_scope.md R8, 70_reset_and_hazards.md R461, R462: the three parameters of a run, at their defaults and not. -/
theorem test_start :
    State.start .reset defaultPlatform [] [] = State.reset ∧ State.start .postBoot defaultPlatform [] [] = State.postBoot ∧
    (State.start .postBoot [.workRam] [(5, 4)] [0x11#8]).cpu.pc = 0x0100#16 ∧
    (State.start .postBoot [.workRam] [(5, 4)] [0x11#8]).hostEvents = [(5, 4)] ∧
    (State.start .postBoot [.workRam] [(5, 4)] [0x11#8]).platform = [.workRam] := by decide +kernel

/-! ## States and operands that meet the hypotheses of the statements -/

/-- `StoreByte`, `StepMemory`, `ShiftMemory`, `BitWriteMemory`, `StoreStackPointer`, `PushPair`, `Calls`, `BusWriteStores`:
plain memory and canonical storage, at both ends of every window of the default platform, and in a memory attached to the
bus; a byte a store does not touch, and two it does. -/
theorem witness_store_readBack :
    State.reset.storageWf = true ∧
    [0x8000#16, 0x9FFF#16, 0xC000#16, 0xDFFF#16, 0xE000#16, 0xFDFF#16, 0xFE00#16, 0xFE9F#16, 0xFF80#16, 0xFFFE#16].all
      State.reset.plainRam = true ∧
    [0x0000#16, 0x7FFF#16, 0xA000#16, 0xBFFF#16, 0xFEA0#16, 0xFF7F#16, 0xFFFF#16].any State.reset.plainRam = false ∧
    (withRam.storageWf && withRam.plainRam 0xA000#16 && withRam.plainRam 0xBFFF#16 && !withRam.plainRam 0x0000#16) = true ∧
    State.reset.plainRam 0xFFFD#16 = true ∧ State.reset.plainRam (0xFFFD#16 + 1#16) = true ∧
    State.reset.touches 0xC000#16 0xC001#16 = false ∧ State.reset.touches 0xC000#16 0xE000#16 = true ∧
    State.reset.touches 0xFF40#16 0xFF44#16 = true ∧
    0xFF04#16 ∉ [0xC000#16] ∧ 0xFF40#16 ∉ [0xC000#16] ∧ 0xFF46#16 ∉ [0xC000#16] := by decide +kernel

/-- `BusWriteStores`: with a component specified only at its boundary behind the work RAM, a store may change IF and what is
left to that component, and nothing of the core's storage, the cartridge or the work RAM. -/
theorem witness_external :
    let s := attachedTo [.cartridge, .workRam, .external 0 0]
    s.touches 0xC000#16 0xFF0F#16 = true ∧ s.touches 0xC000#16 0xA000#16 = true ∧ s.touches 0xA000#16 0x0000#16 = false ∧
    s.touches 0xA000#16 0xC000#16 = false ∧ s.touches 0xA000#16 0x8000#16 = false ∧ s.plainRam 0xC000#16 = true ∧
    s.plainRam 0xA000#16 = false := by decide +kernel

/-- The read-back hypotheses and the conclusion of `StoresWord` meet: a push into work RAM. -/
theorem witness_push_into_ram :
    State.reset.plainRam (0xD000#16 - 2#16) = true ∧ State.reset.plainRam (0xD000#16 - 2#16 + 1#16) = true := by
  decide +kernel

/-- `LoadPair`, `StepPair`: a pair that is not SP. -/
theorem witness_pair_not_sp : Pair.hl ≠ Pair.sp := by decide

/-- `PopPair`: each pair and its name in r16stk. -/
theorem witness_popPair : (Pair.hl, StackPair.hl) ∈ [(Pair.bc, StackPair.bc), (.de, .de), (.hl, .hl)] := by decide

/-- `StackRoundTrips`: the stack in work RAM, at the top of HRAM and at the bottom of VRAM. -/
theorem witness_stackRoundTrips :
    [0xD000#16, 0xFFFF#16, 0x8002#16].all (fun sp =>
      (State.reset.setSp sp).storageWf && (State.reset.setSp sp).plainRam ((State.reset.setSp sp).cpu.sp - 2#16) &&
      (State.reset.setSp sp).plainRam ((State.reset.setSp sp).cpu.sp - 1#16)) = true := by decide +kernel

/-- `DecimalArithmetic`: the largest and the smallest operands. -/
theorem witness_decimal :
    (99 < 100 ∧ (State.reset.setReg .a 0x99#8).cpu.a = packed 99) ∧ 0 < 100 ∧ State.reset.cpu.a = packed 0 := by decide +kernel

/-- `AccumulatorRotates`: a member of the list. -/
theorem witness_accumulatorRotates :
    (Shift.rr, Instr.rra, 0x1F#8) ∈
      [(Shift.rlc, Instr.rlca, 0x07#8), (.rrc, .rrca, 0x0F#8), (.rl, .rla, 0x17#8), (.rr, .rra, 0x1F#8)] := by decide

/-- `ConditionalJumps`, `Calls`, `ReturnInstructions`: each condition holding and not holding. -/
theorem witness_conditions :
    (holds State.reset .nz ∧ holds State.reset .nc ∧ ¬holds State.reset .z ∧ ¬holds State.reset .c) ∧
    holds (State.reset.setF 0x90#8) .z ∧ holds (State.reset.setF 0x90#8) .c ∧ ¬holds (State.reset.setF 0x90#8) .nz ∧
    ¬holds (State.reset.setF 0x90#8) .nc := by
  simp only [holds]
  decide

/-- `DecodeOfEncode`, `LengthFromFirstByte`, `EncodeOfDecode`: a well-formed instruction, the prefix marker and a byte that
is not 0x10. -/
theorem witness_encoding : Instr.halt.wellFormed = true ∧ (0xCB#8 : Byte) = 0xCB#8 ∧ (0x00#8 : Byte) ≠ 0x10#8 := by decide

/-- `StepRunsDecodedInstruction`, with IME clear. -/
theorem witness_stepRuns :
    State.reset.Running ∧ (atCpu State.reset).cpu.next = some State.reset.now ∧ (atCpu State.reset).cpu.ime = false ∧
    decode (bytesAtPc (atCpu State.reset)) = .ok (.nop, [0x00#8, 0x00#8]) ∧ Instr.nop.wellFormed = true := by
  unfold State.Running
  decide +kernel

/-- `StepRunsDecodedInstruction`, with IME set and a request that is masked. -/
theorem witness_stepRuns_masked :
    let s := { State.reset with cpu := { State.reset.cpu with ime := true, ie := 0x02#8, ifReg := 0x05#8 } }
    s.Running ∧ (atCpu s).cpu.next = some s.now ∧ (atCpu s).cpu.ie &&& (atCpu s).cpu.ifReg = 0#8 ∧
    decode (bytesAtPc (atCpu s)) = .ok (.nop, [0x00#8, 0x00#8]) := by
  unfold State.Running
  decide +kernel

/-- `IdleTick`: a CPU in the idle cycles of an instruction, and a halted one. -/
theorem witness_idle :
    (let s := State.reset.setNext (some 1)
     s.Running ∧ (atCpu s).cpu.next ≠ some s.now) ∧
    let s := State.reset.setNext none
    s.Running ∧ (atCpu s).cpu.next ≠ some s.now ∧ s.Halted := by
  unfold State.Running State.Halted
  decide +kernel

/-- `StepServicesInterrupt`: the lowest and the highest index. -/
theorem witness_service :
    ∀ i ∈ [0, 4],
      let s := { State.reset with cpu := { State.reset.cpu with ime := true, ie := 0xFF#8, ifReg := 1#8 <<< i } }
      s.fatal = none ∧ (atCpu s).cpu.next = some s.now ∧ (atCpu s).cpu.ime = true ∧ i < 5 ∧
      ((atCpu s).cpu.ie &&& (atCpu s).cpu.ifReg).getLsbD i = true ∧
      ∀ j < i, ((atCpu s).cpu.ie &&& (atCpu s).cpu.ifReg).getLsbD j = false := by decide +kernel

/-- `BadInterruptIndexIsFatal`: the lowest and the highest index. -/
theorem witness_badIndex :
    ∀ i ∈ [5, 7],
      let s := { State.reset with cpu := { State.reset.cpu with ime := true, ie := 0xFF#8, ifReg := 1#8 <<< i } }
      s.fatal = none ∧ (atCpu s).cpu.next = some s.now ∧ (atCpu s).cpu.ime = true ∧ 5 ≤ i ∧ i < 8 ∧
      ((atCpu s).cpu.ie &&& (atCpu s).cpu.ifReg).getLsbD i = true ∧
      ∀ j < i, ((atCpu s).cpu.ie &&& (atCpu s).cpu.ifReg).getLsbD j = false := by decide +kernel

/-- `TimeAndFatal`: a running state and one that met a Fatal. -/
theorem witness_fatal : State.reset.Running ∧ (raiseFatal .stop State.reset).fatal = some .stop := ⟨rfl, rfl⟩

/-- A state seven ticks on, the CPU at a boundary. -/
def sevenOn : State := { State.reset with now := 7, cpu := { State.reset.cpu with next := some 7 } }

/-- `StepKeepsInvariant`: a state with the invariant and a step from it. -/
theorem witness_invariant : sevenOn.Inv ∧ ∃ t, step sevenOn = .next t :=
  ⟨{ memCanonical := by decide +kernel
     memOnStorage := by decide +kernel
     platformCanonical := by decide +kernel
     flagsLow := by decide +kernel
     counterLow := by decide +kernel
     lineRange := by decide +kernel
     dmaRange := by decide +kernel
     dmaLatched := rfl
     frameCurShape := by unfold frameShape; decide +kernel
     frameNextShape := by unfold builderShape; decide +kernel
     cpuNotLate := by decide +kernel
     lcdNotLate := by decide +kernel
     lcdEnabled := fun h => absurd rfl h }, _, rfl⟩

/-- `RomNeverChanges`: a step from a state with the cartridge serving both ends of its window, and with a read-only memory. -/
theorem witness_rom :
    ((∃ t, step sevenOn = .next t) ∧ (∃ t, step (attachedTo [.memory 0 0xFF false [(0x10, 0x42#8)], .cartridge]) = .next t)) ∧
    (0x7FFF#16 : Word).toNat ≤ 0x7FFF ∧
    sevenOn.server 0x0000#16 = some .cartridge ∧ sevenOn.server 0x7FFF#16 = some .cartridge ∧
    .memory 0 0xFF false [(0x10, 0x42#8)] ∈ (attachedTo [.memory 0 0xFF false [(0x10, 0x42#8)], .cartridge]).platform :=
  ⟨⟨⟨_, rfl⟩, _, rfl⟩, by decide, by decide +kernel, by decide +kernel, by decide +kernel⟩

/-- A display on since tick 0, in line 0 of its first frame, the CPU idle. -/
def displayOn : State :=
  { State.reset with
    now := 1
    cpu := { State.reset.cpu with next := some 4 }
    lcd := { State.reset.lcd with lcdc := 0x80#8, stat := 0x06#8, next := some 20 } }

/-- `StepKeepsDisplaySchedule`: a display on its schedule and a step that raises no Fatal. -/
theorem witness_schedule : displayOn.ScheduleInv ∧ displayOn.DisplayOn ∧ ∃ t, step displayOn = .next t ∧ t.fatal = none :=
  ⟨⟨by decide +kernel, fun _ =>
    { started := by decide +kernel
      line := by decide +kernel
      mode := by decide +kernel
      watermark := by decide +kernel
      window := by decide +kernel
      filled := fun y hy => absurd hy (Nat.not_lt_zero y) }⟩,
    by unfold State.DisplayOn; decide +kernel, _, rfl, rfl⟩

/-- `BusReadMap`, `BusWriteStores`: each range has both its ends, and no address lies in two ranges with different outcomes. -/
theorem witness_regions :
    State.reset.platform = [.cartridge, .workRam] ∧
    (coreStorage 0x8000#16 ∧ coreStorage 0x9FFF#16 ∧ coreStorage 0xFE00#16 ∧ coreStorage 0xFE9F#16 ∧ coreStorage 0xFF80#16 ∧
      coreStorage 0xFFFE#16) ∧
    (platformAddress 0x0000#16 ∧ platformAddress 0x7FFF#16 ∧ platformAddress 0xA000#16 ∧ platformAddress 0xFDFF#16 ∧
      platformAddress 0xFEA0#16 ∧ platformAddress 0xFF7F#16) ∧
    (droppedByDefault 0x0000#16 ∧ droppedByDefault 0xBFFF#16 ∧ droppedByDefault 0xFEA0#16 ∧ droppedByDefault 0xFF7F#16) ∧
    (¬droppedByDefault 0xC000#16 ∧ ¬droppedByDefault 0xFDFF#16 ∧ ¬droppedByDefault 0xFF44#16) ∧
    (coreRegister 0xFF04#16 ∧ coreRegister 0xFF07#16 ∧ coreRegister 0xFF0F#16 ∧ coreRegister 0xFF40#16 ∧
      coreRegister 0xFF4B#16 ∧ coreRegister 0xFFFF#16) := by
  unfold platformAddress coreStorage coreRegister droppedByDefault
  refine ⟨rfl, ?_, ⟨?_, ?_, ?_, ?_, ?_, ?_⟩, ?_, ?_, ?_⟩ <;> decide +kernel

/-- `BusWriteStores`: the work RAM serves an address and its mirror; and an address that no component's window covers. -/
theorem witness_mirrors :
    State.reset.server 0xC000#16 = some .workRam ∧ State.reset.server 0xE000#16 = some .workRam ∧ State.reset.mem.wf = true ∧
    mirrors 0xC000#16 0xE000#16 = true ∧ mirrors 0xDDFF#16 0xFDFF#16 = true ∧ mirrors 0xDE00#16 0xFE00#16 = false ∧
    ∀ c ∈ State.reset.platform, c.mayAnswer 0xA000#16 = false := by decide +kernel

/-- `BusWriteStores`, the delivery in order: a list for each clause. -/
theorem witness_delivery :
    (attachedTo []).platform = [] ∧ State.reset.platform = .cartridge :: [.workRam] ∧
    (attachedTo [.workRam]).platform = .workRam :: [] ∧ withRam.platform = .memory 0xA000 0xBFFF true [] :: [.cartridge] ∧
    (attachedTo [.external 3 0]).platform = .external 3 0 :: [] := by decide +kernel

/-- `TimaCountsPeriods`: the fastest rate over 1023 ticks from zero, where TIMA ends at 255, and the slowest. -/
theorem witness_timaCounts :
    ((5#8 : Byte).getLsbD 2 = true ∧ 16 = 2 ^ (selectedBit 5#8 + 1) ∧ 0 + ((0 + 4 * 1023) / 16 - 0 / 16) ≤ 255) ∧
    (4#8 : Byte).getLsbD 2 = true ∧ 1024 = 2 ^ (selectedBit 4#8 + 1) ∧ 0 + ((0 + 4 * 300) / 1024 - 0 / 1024) ≤ 255 := by decide

/-- `DisplayWrites`: a write to LCDC that powers down, and one that does not. -/
theorem witness_lcdc :
    (displayOn.lcd.lcdc.getLsbD 7 = true ∧ (0x7F#8 : Byte).getLsbD 7 = false) ∧
    ¬(State.reset.lcd.lcdc.getLsbD 7 = true ∧ (0x00#8 : Byte).getLsbD 7 = false) := by decide +kernel

/-- `SequencerStep`: a state at its watermark for each clause, at the ends of its range of lines; and one not at it. -/
theorem witness_sequencer :
    (∀ x ∈ [(0, 0, 0), (114, 1, 0), (16302, 143, 0), (20, 0, 20), (16322, 143, 20), (63, 0, 63), (16365, 143, 63),
        (16416, 144, 0), (16530, 145, 0), (17442, 153, 0)],
      let s := { State.reset with now := x.1, lcd := { State.reset.lcd with onCycle := 0, next := some x.1 } }
      s.lcd.next = some s.now ∧ s.lcd.onCycle ≤ s.now ∧ x.2.1 = (s.now - s.lcd.onCycle) % 17556 / 114 ∧
      x.2.2 = (s.now - s.lcd.onCycle) % 17556 % 114) ∧
    State.reset.lcd.next ≠ some State.reset.now := by decide +kernel

/-- `SpriteOrder`: 49_display.md R379, R381: eleven sprites on line 0, entry 0 off it; the first ten of the others are
selected, and equal X are in index order. -/
theorem test_sprite_selection :
    let m := (placeBytes 0xFE00#16 ([0#8, 9#8, 0#8, 0#8] ++ (List.range 11).flatMap (fun k =>
      [16#8, BitVec.ofNat 8 (20 - k % 2), BitVec.ofNat 8 k, 0#8])) State.reset).mem
    (sortSprites (selectSprites { State.reset.lcd with lcdc := 0x02#8 } m 0)).map (fun sp => sp.tile.toNat) =
      [1, 3, 5, 7, 9, 0, 2, 4, 6, 8] ∧
    selectSprites { State.reset.lcd with lcdc := 0x00#8 } m 0 = [] := by decide +kernel

/-- `PowerUp`: a suspended display with its enable bit set, and clear. -/
theorem witness_powerUp :
    (let s := { State.reset with lcd := { State.reset.lcd with lcdc := 0x80#8 } }
     s.lcd.next = none ∧ s.lcd.lcdc.getLsbD 7 = true) ∧
    State.reset.lcd.next = none ∧ State.reset.lcd.lcdc.getLsbD 7 = false := by decide +kernel

/-- `DmaCopiesOneByte`: the first and the last byte of a copy, and a finished one. -/
theorem witness_dma :
    (∀ i ∈ [0, 0x9F],
      let s := { State.reset with lcd := { State.reset.lcd with dmaIdx := i } }
      s.lcd.dmaIdx < 0xA0 ∧ s.mem.wf = true) ∧
    0xA0 ≤ State.reset.lcd.dmaIdx := by decide +kernel

/-- `DevicesOwnTheirState`, `BadInterruptIndexIsFatal`: the devices' ticks of the reset state, and a bit they leave. -/
theorem witness_devices :
    ∃ t, t = lcdTick (timerTick (deliverHostEvents State.reset)) ∧ t.cpu.ifReg.getLsbD 5 = State.reset.cpu.ifReg.getLsbD 5 :=
  ⟨_, rfl, by decide +kernel⟩

end Sys2Proof.Tests
end

section
/-! SUPPORT. What an action of the CPU is made of, said once for every instruction and for interrupt service: writes of single
registers and bus writes, and then a commit, a HALT or a Fatal. Every invariant of the CPU's part of a tick follows from it. -/

namespace Sys2Proof.Machine

/-! ## The writes before the commit -/

/-- `t` is `s` after writes of byte registers, F, SP, IME and IF and bus writes, in any order and of any values; F's low nibble
is always written as 0 (10_state.md R22, R24). -/
inductive CpuWrites (s : State) : State → Prop where
  | refl : CpuWrites s s
  | setReg {t : State} (r : Reg8) (v : Byte) (h : CpuWrites s t) : CpuWrites s (t.setReg r v)
  | setF {t : State} (v : Byte) (hv : v &&& 0x0F#8 = 0#8) (h : CpuWrites s t) : CpuWrites s (t.setF v)
  | setSp {t : State} (v : Word) (h : CpuWrites s t) : CpuWrites s (t.setSp v)
  | setIme {t : State} (x : Bool) (h : CpuWrites s t) : CpuWrites s (t.setIme x)
  | setIf {t : State} (v : Byte) (h : CpuWrites s t) : CpuWrites s { t with cpu := { t.cpu with ifReg := v } }
  | busWrite {t : State} (a : Word) (v : Byte) (h : CpuWrites s t) : CpuWrites s (busWrite t a v)

namespace CpuWrites

variable {s t : State}

theorem setFlags (z n h c : Option Bool) (w : CpuWrites s t) : CpuWrites s (t.setFlags z n h c) :=
  w.setF _ (Flags.toByte_low _)

theorem setBc (v : Word) (w : CpuWrites s t) : CpuWrites s (t.setBc v) := (w.setReg .b (hi v)).setReg .c (lo v)

theorem setDe (v : Word) (w : CpuWrites s t) : CpuWrites s (t.setDe v) := (w.setReg .d (hi v)).setReg .e (lo v)

theorem setHl (v : Word) (w : CpuWrites s t) : CpuWrites s (t.setHl v) := (w.setReg .h (hi v)).setReg .l (lo v)

theorem setAf (v : Word) (w : CpuWrites s t) : CpuWrites s (t.setAf v) :=
  (w.setReg .a (hi v)).setF (lo v &&& 0xF0#8) (by rw [BitVec.and_assoc]; exact BitVec.and_zero)

theorem setPair (p : Pair) (v : Word) (w : CpuWrites s t) : CpuWrites s (t.setPair p v) := by
  cases p with
  | bc => exact w.setBc v
  | de => exact w.setDe v
  | hl => exact w.setHl v
  | sp => exact w.setSp v

theorem setStackPair (p : StackPair) (v : Word) (w : CpuWrites s t) : CpuWrites s (t.setStackPair p v) := by
  cases p with
  | bc => exact w.setBc v
  | de => exact w.setDe v
  | hl => exact w.setHl v
  | af => exact w.setAf v

theorem busWrite16 (a v : Word) (w : CpuWrites s t) : CpuWrites s (busWrite16 t a v) :=
  (w.busWrite a (lo v)).busWrite (a + 1#16) (hi v)

theorem push16 (v : Word) (w : CpuWrites s t) : CpuWrites s (push16 v t) := (w.setSp _).busWrite16 _ _

theorem popState (w : CpuWrites s t) : CpuWrites s (popState t) := w.setSp _

/-- A prefixed rotate or shift of a register. -/
theorem shiftReg (rs : Reg8) (r : AluOut 8) (w : CpuWrites s t) : CpuWrites s (shiftReg rs r t) :=
  (w.setReg rs _).setFlags _ _ _ _

/-- A prefixed rotate or shift of `(HL)`. -/
theorem shiftHl (r : AluOut 8) (w : CpuWrites s t) : CpuWrites s (shiftHl r t) := (w.busWrite _ _).setFlags _ _ _ _

end CpuWrites

/-! ## The whole action -/

/-- What an action of the CPU ends in: the commit of a PC and a positive cost after its writes, HALT, or a Fatal, which leaves
everything else as it was (30_encoding.md R113; 47_system.md R301; 60_exceptions.md R440). -/
inductive CpuAction (s : State) : State → Prop where
  | jump {u : State} (target : Word) (cost : Nat) (hcost : 0 < cost) (h : CpuWrites s u) : CpuAction s (jumpTo target cost u)
  | halt (target : Word) : CpuAction s ((s.setPc target).setNext none)
  | fatal (kind : FatalKind) : CpuAction s (raiseFatal kind s)

/-- An answer is a next state that an action of the CPU leads to. -/
def Acts (s : State) (r : Result) : Prop := ∃ t, r = .next t ∧ CpuAction s t

theorem Acts.jump {s u : State} {target : Word} {cost : Nat} (h : CpuWrites s u) (hcost : 0 < cost := by decide) :
    Acts s (.next (jumpTo target cost u)) := ⟨_, rfl, .jump target cost hcost h⟩

theorem Acts.commit {s u : State} {len cost : Nat} (h : CpuWrites s u) (hcost : 0 < cost := by decide) :
    Acts s (.next (commit len cost u)) := ⟨_, rfl, .jump _ cost hcost h⟩

theorem Acts.fatal {s : State} {kind : FatalKind} : Acts s (.next (raiseFatal kind s)) := ⟨_, rfl, .fatal kind⟩

/-- A conditional transfer acts when both its branches do. -/
theorem Acts.ite {s t u : State} {c : Bool} (ht : Acts s (.next t)) (hu : Acts s (.next u)) :
    Acts s (.next (if c then t else u)) := by
  cases c with
  | false => exact hu
  | true => exact ht

/-! ## Every instruction -/

theorem execShiftReg_acts (y : Fin 8) (rs : Reg8) (s : State) : Acts s (execShiftReg y rs s) := by
  unfold execShiftReg
  split <;> exact .commit (.shiftReg _ _ .refl)

theorem execShiftHl_acts (y : Fin 8) (s : State) : Acts s (execShiftHl y s) := by
  unfold execShiftHl
  split <;> exact .commit (.shiftHl _ .refl)

theorem execBitBR_acts (b : Fin 8) (rs : Reg8) (s : State) : Acts s (execBitBR b rs s) :=
  .commit (.setFlags _ _ _ _ .refl)

theorem execBitBHl_acts (b : Fin 8) (s : State) : Acts s (execBitBHl b s) := .commit (.setFlags _ _ _ _ .refl)

theorem execResBR_acts (b : Fin 8) (rs : Reg8) (s : State) : Acts s (execResBR b rs s) := .commit (.setReg _ _ .refl)

theorem execResBHl_acts (b : Fin 8) (s : State) : Acts s (execResBHl b s) := .commit (.busWrite _ _ .refl)

theorem execSetBR_acts (b : Fin 8) (rs : Reg8) (s : State) : Acts s (execSetBR b rs s) := .commit (.setReg _ _ .refl)

theorem execSetBHl_acts (b : Fin 8) (s : State) : Acts s (execSetBHl b s) := .commit (.busWrite _ _ .refl)

theorem execPrefixedByte_acts (b : Byte) (s : State) : Acts s (execPrefixedByte b s) := by
  unfold execPrefixedByte
  split
  · exact execShiftReg_acts _ _ s
  · exact execShiftHl_acts _ s
  · exact execBitBR_acts _ _ s
  · exact execBitBHl_acts _ s
  · exact execResBR_acts _ _ s
  · exact execResBHl_acts _ s
  · exact execSetBR_acts _ _ s
  · exact execSetBHl_acts _ s

/-- Every instruction, in every state, answers with an action of the CPU: by the shape of its writes. -/
theorem exec_acts (i : Instr) (s : State) : Acts s (exec i s) := by
  cases i with
  | ldRR | ldRN8 | ldRHl | ldABc | ldADe | ldAN16 | ldhAN8 | ldAC => exact .commit (.setReg _ _ .refl)
  | ldHlR | ldHlN8 | ldBcA | ldDeA | ldN16A | ldhN8A | ldCA => exact .commit (.busWrite _ _ .refl)
  | ldAHlInc | ldAHlDec => exact .commit (.setHl _ (.setReg _ _ .refl))
  | ldHlIncA | ldHlDecA => exact .commit (.setHl _ (.busWrite _ _ .refl))
  | ldRrN16 | incRr | decRr => exact .commit (.setPair _ _ .refl)
  | ldN16Sp => exact .commit (.busWrite16 _ _ .refl)
  | ldSpHl => exact .commit (.setSp _ .refl)
  | ldHlSpE8 | addHlRr => exact .commit (.setFlags _ _ _ _ (.setHl _ .refl))
  | addSpE8 => exact .commit (.setFlags _ _ _ _ (.setSp _ .refl))
  | pushRr => exact .commit (.push16 _ .refl)
  | popRr => exact .commit (.setStackPair _ _ (.popState .refl))
  | addAR | addAHl | addAN8 | adcAR | adcAHl | adcAN8 | subAR | subAHl | subAN8 | sbcAR | sbcAHl | sbcAN8
  | andAR | andAHl | andAN8 | xorAR | xorAHl | xorAN8 | orAR | orAHl | orAN8
  | incR | decR | daa | cpl | rlca | rrca | rla | rra => exact .commit (.setFlags _ _ _ _ (.setReg _ _ .refl))
  | cpAR | cpAHl | cpAN8 | scf | ccf => exact .commit (.setFlags _ _ _ _ .refl)
  | incHl | decHl => exact .commit (.setFlags _ _ _ _ (.busWrite _ _ .refl))
  | rlcR | rrcR | rlR | rrR | slaR | sraR | swapR | srlR => exact .commit (.shiftReg _ _ .refl)
  | rlcHl | rrcHl | rlHl | rrHl | slaHl | sraHl | swapHl | srlHl => exact .commit (.shiftHl _ .refl)
  | bitBR b rs => exact execBitBR_acts b rs s
  | bitBHl b => exact execBitBHl_acts b s
  | resBR b rs => exact execResBR_acts b rs s
  | resBHl b => exact execResBHl_acts b s
  | setBR b rs => exact execSetBR_acts b rs s
  | setBHl b => exact execSetBHl_acts b s
  | jpN16 | jpHl | jrE8 => exact .jump .refl
  | jpCcN16 | jrCcE8 => exact .ite (.jump .refl) (.commit .refl)
  | callN16 | rstT => exact .jump (.push16 _ .refl)
  | callCcN16 => exact .ite (.jump (.push16 _ .refl)) (.commit .refl)
  | ret => exact .jump (.popState .refl)
  | retCc => exact .ite (.jump (.popState .refl)) (.commit .refl)
  | reti => exact .jump (.setIme _ (.popState .refl))
  | nop => exact .commit .refl
  | di | ei => exact .commit (.setIme _ .refl)
  | halt => exact ⟨_, rfl, .halt _⟩
  | stop | illegalD3 | illegalDB | illegalDD | illegalE3 | illegalE4 | illegalEB | illegalEC | illegalED | illegalF4
  | illegalFC | illegalFD => exact .fatal
  | pfx => exact execPrefixedByte_acts _ s

/-! ## Interrupt service, and the CPU's tick -/

theorem takeInterrupt_action (i : Nat) (s : State) : CpuAction s (takeInterrupt i s) := by
  unfold takeInterrupt
  split
  · exact .fatal _
  · exact .jump _ _ (by decide) (.setIme _ (.push16 _ (.setIf _ .refl)))

theorem cpuActive_acts (s : State) : Acts s (cpuActive s) := by
  unfold cpuActive
  split
  · exact ⟨_, rfl, takeInterrupt_action _ s⟩
  · exact exec_acts _ s

/-- The CPU's tick: idle or halted it is the wake test alone; at the watermark the CPU acts on what the wake test leaves. -/
theorem cpuTick_cases (s : State) :
    ((wakeTest s).cpu.next ≠ some s.now ∧ cpuTick s = .next (wakeTest s)) ∨
    ((wakeTest s).cpu.next = some s.now ∧ Acts (wakeTest s) (cpuTick s)) := by
  unfold cpuTick
  split
  case isTrue h => exact .inr ⟨h, cpuActive_acts _⟩
  case isFalse h => exact .inl ⟨h, rfl⟩

end Sys2Proof.Machine
end

section
/-! SUPPORT. What one act of the mode sequencer is made of, said once for its five cases: writes of the display's own fields
and interrupt requests, and then a new watermark. -/

namespace Sys2Proof.Machine

/-- `t` is `s` after what the sequencer does before it waits: modes, lines up to 153, a fresh frame, composited lines, the
published frame and the vblank request (49_display.md R361). -/
inductive LcdWrites (s : State) : State → Prop where
  | refl : LcdWrites s s
  | setMode {t : State} (m : Pixel) (h : LcdWrites s t) : LcdWrites s (lcdSetMode m t)
  | setLy {t : State} (v : Byte) (hv : v.toNat ≤ 153) (h : LcdWrites s t) : LcdWrites s (lcdSetLy v t)
  | newFrame {t : State} (h : LcdWrites s t) : LcdWrites s (lcdNewFrame t)
  | composeInto {t : State} (line : Nat) (h : LcdWrites s t) : LcdWrites s (lcdComposeInto line t)
  | publish {t : State} (h : LcdWrites s t) :
      LcdWrites s { t with lcd := { t.lcd with frameCur := publish t.lcd.frameNext } }
  | requestVblank {t : State} (h : LcdWrites s t) : LcdWrites s (requestInterrupt 0 t)

/-- The line of a frame time is one of the 154 (49_display.md R341). -/
theorem frameTime_line_le (s : State) : frameTime s / Config.lineCycles ≤ 153 := by
  have hlt : ((s.now : Int) - s.lcd.onCycle) % 17556 < 17556 := Int.emod_lt_of_pos _ (by decide)
  show (((s.now : Int) - s.lcd.onCycle) % 17556).toNat / 114 ≤ 153
  omega

/-- A line number up to 153 fits LY. -/
theorem lineByte_le {line : Nat} (h : line ≤ 153) : (BitVec.ofNat 8 line).toNat ≤ 153 := by
  rw [BitVec.toNat_ofNat]
  omega

theorem lcdLineStart_writes {line : Nat} (hl : line ≤ 153) (s : State) :
    ∃ u, LcdWrites s u ∧ lcdLineStart line s = lcdWait 20 u := by
  refine ⟨_, .setMode _ (.setLy _ (lineByte_le hl) ?_), rfl⟩
  split
  · exact .newFrame .refl
  · exact .refl

theorem lcdVblankLine_writes {line : Nat} (hl : line ≤ 153) (s : State) :
    ∃ u, LcdWrites s u ∧ lcdVblankLine line s = lcdWait 114 u := by
  have hly : LcdWrites s (lcdSetLy (BitVec.ofNat 8 line) s) := .setLy _ (lineByte_le hl) .refl
  refine ⟨_, ?_, rfl⟩
  split
  · exact .requestVblank (.publish (.setMode _ hly))
  · exact hly

/-- Everything an act of the sequencer can do: its writes, and a watermark later than the current tick. -/
theorem lcdStep_writes (s : State) : ∃ u wait, LcdWrites s u ∧ 0 < wait ∧ lcdStep s = lcdWait wait u := by
  have hline := frameTime_line_le s
  unfold lcdStep
  generalize frameTime s / Config.lineCycles = line at hline ⊢
  simp only
  split
  · split
    · obtain ⟨u, hu, he⟩ := lcdLineStart_writes hline s
      exact ⟨u, _, hu, by decide, he⟩
    · split
      · exact ⟨_, 43, .composeInto _ (.setMode _ .refl), by decide, rfl⟩
      · exact ⟨_, 51, .setMode _ .refl, by decide, rfl⟩
  · obtain ⟨u, hu, he⟩ := lcdVblankLine_writes hline s
    exact ⟨u, _, hu, by decide, he⟩

/-- A mode entry changes STAT and IF only. -/
theorem lcdSetMode_frame (m : Pixel) (s : State) :
    lcdSetMode m s =
      { s with
        cpu := { s.cpu with ifReg := (lcdSetMode m s).cpu.ifReg }
        lcd := { s.lcd with stat := withMode s.lcd.stat m } } := by
  unfold lcdSetMode
  simp only
  split <;> rfl

/-- Storing LY changes LY, STAT and IF only. -/
theorem lcdSetLy_frame (v : Byte) (s : State) :
    lcdSetLy v s =
      { s with
        cpu := { s.cpu with ifReg := (lcdSetLy v s).cpu.ifReg }
        lcd := { s.lcd with ly := v, stat := (lcdSetLy v s).lcd.stat } } := by
  unfold lcdSetLy
  rcases lcdCompare_spec { s with lcd := { s.lcd with ly := v } } with ⟨-, -, h⟩ | ⟨-, -, h⟩ | ⟨-, h⟩
  · rw [h]
    rfl
  · rw [h]
  · rw [h]

/-- The writes of the sequencer change the display's LY, STAT and frames and IF only. -/
theorem LcdWrites.frame {s u : State} (h : LcdWrites s u) :
    u =
      { s with
        cpu := { s.cpu with ifReg := u.cpu.ifReg }
        lcd :=
          { s.lcd with
            ly := u.lcd.ly, stat := u.lcd.stat, winLine := u.lcd.winLine, frameCur := u.lcd.frameCur,
            frameNext := u.lcd.frameNext } } := by
  induction h with
  | refl => rfl
  | setMode m _ ih =>
    rw [lcdSetMode_frame]
    generalize (lcdSetMode _ _).cpu.ifReg = x
    rw [ih]
  | setLy v _ _ ih =>
    rw [lcdSetLy_frame]
    generalize (lcdSetLy _ _).cpu.ifReg = x
    generalize (lcdSetLy _ _).lcd.stat = y
    rw [ih]
  | newFrame _ ih => rw [ih]; rfl
  | composeInto line _ ih => rw [ih]; rfl
  | publish _ ih => rw [ih]
  | requestVblank _ ih => rw [ih]; rfl

end Sys2Proof.Machine
end

section
/-! SUPPORT. The state invariant under every operation of a tick, and so under every step. -/

namespace Sys2Proof.Machine

/-! ## What holds of the two watermarks when `now` advances -/

/-- The CPU's watermark lies after `now`, or it is halted. -/
def State.CpuAhead (s : State) : Prop := ∀ n ∈ s.cpu.next, s.now < n

/-- The display's watermark lies after `now`, or it is off. -/
def State.LcdAhead (s : State) : Prop := ∀ n ∈ s.lcd.next, s.now < n

/-- The display's watermark is the same, or the display went off, as at every write of a program (49_display.md R364). -/
def LcdNextKept (s t : State) : Prop := t.lcd.next = s.lcd.next ∨ t.lcd.next = none

theorem LcdNextKept.trans {s t u : State} (h : LcdNextKept s t) (h' : LcdNextKept t u) : LcdNextKept s u := by
  rcases h' with h' | h'
  · exact h.imp h'.trans h'.trans
  · exact .inr h'

theorem State.LcdAhead.of_kept {s t : State} (h : s.LcdAhead) (hn : t.now = s.now) (hk : LcdNextKept s t) :
    t.LcdAhead := by
  intro n hmem
  rcases hk with hk | hk <;> rw [hk] at hmem
  · exact hn ▸ h n hmem
  · cases hmem

theorem lcdCompare_next (s : State) : (lcdCompare s).lcd.next = s.lcd.next := by
  obtain ⟨-, -, -, -, e⟩ := lcdCompare_frame s
  rw [e]

theorem lcdRegWrite_nextKept (i : Nat) (v : Byte) (s : State) : LcdNextKept s (lcdRegWrite i v s) := by
  unfold lcdRegWrite
  split
  case h_1 =>
    unfold lcdWriteLcdc
    simp only
    split
    · exact .inr rfl
    · exact .inl rfl
  case h_6 => exact .inl (lcdCompare_next _)
  all_goals exact .inl rfl

theorem lcdWrite_nextKept (s : State) (a : Word) (v : Byte) : LcdNextKept s (lcdWrite s a v) := by
  unfold lcdWrite
  split
  · exact .inl rfl
  split
  · exact lcdRegWrite_nextKept _ v s
  · exact .inl rfl

theorem busWrite_nextKept (s : State) (a : Word) (v : Byte) : LcdNextKept s (busWrite s a v) := by
  obtain ⟨-, -, hcpu, -⟩ := cpuWrite_frame s a v
  obtain ⟨-, htimer, -, -⟩ := timerWrite_spec (cpuWrite s a v) a v
  obtain ⟨-, hplatform, -⟩ := platformWrite_rest a v (lcdWrite (timerWrite (cpuWrite s a v) a v) a v)
  have hlcd := lcdWrite_nextKept (timerWrite (cpuWrite s a v) a v) a v
  unfold LcdNextKept at hlcd ⊢
  rw [busWrite_chain, hplatform]
  rw [htimer, hcpu] at hlcd
  exact hlcd

/-- TIMER_INC is a multiple of 4 (48_timer.md R320). -/
theorem counterLow_add_timerInc {c : Word} (hc : c &&& 3#16 = 0#16) : (c + Config.timerInc) &&& 3#16 = 0#16 := by
  have low : ∀ w : Word, (w &&& 3#16).toNat = w.toNat % 4 := fun w => Nat.and_two_pow_sub_one_eq_mod w.toNat 2
  have h0 : c.toNat % 4 = 0 := by rw [← low, hc]; rfl
  apply BitVec.eq_of_toNat_eq
  rw [low, BitVec.toNat_add]
  show (c.toNat + 4) % 65536 % 4 = 0
  omega

/-- A power-down, its writes gathered (49_display.md R364). -/
theorem lcdPowerDown_eq (s : State) :
    lcdPowerDown s =
      lcdCompare { s with lcd := { s.lcd with stat := withMode s.lcd.stat 0#2, ly := 0#8, next := none } } := by
  unfold lcdPowerDown lcdSetLy lcdCompare
  simp only
  split
  · split <;> rfl
  · rfl

/-- A fresh frame builder has the display's geometry. -/
theorem builderShape_fresh : builderShape (List.replicate Config.lcdHeight none) :=
  ⟨List.length_replicate, fun slot hslot row hrow => by
    rw [List.eq_of_mem_replicate hslot] at hrow
    cases hrow⟩

/-! ## What keeps the invariant -/

namespace State.Inv

section

variable {s : State} (h : s.Inv)

include h

/-- A byte stored at an address that storage backs. -/
theorem memWrite {k : Nat} (hk : isStorage k = true) (v : Byte) : State.Inv { s with mem := s.mem.write k v } :=
  { h with
    memCanonical := Memory.wf_write _ _ _ h.memCanonical
    memOnStorage := Memory.onStorage_write _ _ _ hk h.memOnStorage }

theorem setIf (v : Byte) : State.Inv { s with cpu := { s.cpu with ifReg := v } } := { h with }

theorem deliverHostEvents : (deliverHostEvents s).Inv := deliverHostEvents_spec s ▸ h.setIf _

/-! ### The Timer -/

theorem timerChange {r : Timer} (hr : r.counter &&& 3#16 = 0#16) : (timerChange r s).Inv := by
  rcases timerChange_spec r s with e | ⟨-, e⟩ | e <;> rw [e] <;> exact { h with counterLow := hr }

theorem timerWrite (a : Word) (v : Byte) : (timerWrite s a v).Inv := by
  unfold Machine.timerWrite
  split
  · exact h.timerChange BitVec.zero_and
  split
  · exact { h with }
  split
  · exact { h with }
  split
  · exact h.timerChange h.counterLow
  · exact h

theorem timerTick : (timerTick s).Inv := h.timerChange (counterLow_add_timerInc h.counterLow)

/-! ### The display's registers -/

theorem lcdCompare : (lcdCompare s).Inv := by
  rcases lcdCompare_spec s with ⟨-, -, e⟩ | ⟨-, -, e⟩ | ⟨-, e⟩ <;> rw [e] <;> exact { h with }

theorem lcdSetLy {v : Byte} (hv : v.toNat ≤ 153) : (lcdSetLy v s).Inv :=
  lcdCompare (s := { s with lcd := { s.lcd with ly := v } }) { h with lineRange := hv }

theorem lcdSetMode (m : Pixel) : (lcdSetMode m s).Inv := by
  rw [lcdSetMode_frame]
  exact { h with }

/-- A display that the write leaves on has its enable bit: with the bit cleared the write powers it down. -/
theorem lcdWriteLcdc (v : Byte) : (lcdWriteLcdc v s).Inv := by
  unfold Machine.lcdWriteLcdc
  simp only
  split
  · rw [lcdPowerDown_eq]
    exact lcdCompare { h with lineRange := Nat.zero_le _, lcdNotLate := nofun, lcdEnabled := fun hn => absurd rfl hn }
  · rename_i hv
    refine { h with lcdEnabled := fun hn => ?_ }
    have hold := h.lcdEnabled hn
    simpa [hold] using hv

theorem lcdRegWrite (i : Nat) (v : Byte) : (lcdRegWrite i v s).Inv := by
  unfold Machine.lcdRegWrite
  split
  case h_1 => exact h.lcdWriteLcdc v
  case h_6 => exact lcdCompare { h with }
  case h_7 => exact { h with dmaRange := Nat.zero_le _, dmaLatched := rfl }
  all_goals exact { h with }

theorem lcdWrite (a : Word) (v : Byte) : (lcdWrite s a v).Inv := by
  unfold Machine.lcdWrite lcdDecodesRam
  split
  · rename_i ha
    rw [Bool.or_eq_true, inWindow_iff, inWindow_iff] at ha
    exact h.memWrite (by rw [isStorage_iff]; omega) v
  split
  · exact h.lcdRegWrite _ v
  · exact h

/-! ### The bus -/

theorem cpuWrite (a : Word) (v : Byte) : (cpuWrite s a v).Inv := by
  unfold Machine.cpuWrite
  split
  · rename_i ha
    rw [inWindow_iff] at ha
    exact h.memWrite (by rw [isStorage_iff]; omega) v
  split
  · exact { h with }
  split
  · exact { h with }
  · exact h

theorem platformWrite (a : Word) (v : Byte) : (platformWrite a v s).Inv := by
  obtain ⟨hl, hw, hs⟩ := writeEach_wf a v s.platform s h.memCanonical h.memOnStorage h.platformCanonical
  rw [platformWrite_frame]
  exact { h with memCanonical := hw, memOnStorage := hs, platformCanonical := hl }

theorem busWrite (a : Word) (v : Byte) : (busWrite s a v).Inv :=
  (((h.cpuWrite a v).timerWrite a v).lcdWrite a v).platformWrite a v

/-! ### The display's hook -/

theorem lcdPowerTest : (lcdPowerTest s).Inv := by
  unfold Machine.lcdPowerTest
  split
  · rename_i hc
    obtain ⟨-, hbit⟩ := hc
    exact { h with lcdNotLate := fun n hn => (Option.some.inj hn).le, lcdEnabled := fun _ => hbit }
  · exact h

/-- The cursor is below 0xA0 before the byte is stored, so the byte is in OAM and the cursor stays in range. -/
theorem dmaStep : (dmaStep s).Inv := by
  rcases dmaStep_spec s with ⟨hlt, e⟩ | ⟨-, e⟩ <;> rw [e]
  · exact { h.memWrite (k := 0xFE00 + s.lcd.dmaIdx) (by rw [isStorage_iff]; omega) _ with dmaRange := hlt }
  · exact h

theorem newFrame : (lcdNewFrame s).Inv := { h with frameNextShape := builderShape_fresh }

theorem composeInto (line : Nat) : (lcdComposeInto line s).Inv := by
  obtain ⟨hlen, hrows⟩ := h.frameNextShape
  refine { h with frameNextShape := ⟨List.length_set.trans hlen, fun slot hslot row hrow => ?_⟩ }
  rcases List.mem_or_eq_of_mem_set hslot with hold | rfl
  · exact hrows slot hold row hrow
  · cases hrow
    exact (List.length_map _).trans List.length_range

theorem publish : State.Inv { s with lcd := { s.lcd with frameCur := publish s.lcd.frameNext } } := by
  obtain ⟨hlen, hrows⟩ := h.frameNextShape
  refine { h with frameCurShape := ⟨(List.length_map _).trans hlen, fun row hrow => ?_⟩ }
  obtain ⟨slot, hslot, rfl⟩ := List.mem_map.1 hrow
  cases slot with
  | none => exact List.length_replicate
  | some row => exact hrows _ hslot row rfl

theorem lcdWrites {u : State} (w : LcdWrites s u) : u.Inv := by
  induction w with
  | refl => exact h
  | setMode m _ ih => exact ih.lcdSetMode m
  | setLy v hv _ ih => exact ih.lcdSetLy hv
  | newFrame _ ih => exact ih.newFrame
  | composeInto line _ ih => exact ih.composeInto line
  | publish _ ih => exact ih.publish
  | requestVblank _ ih => exact ih.setIf _

/-- After the sequencer the display's watermark lies ahead: it acts when the watermark is the current tick, and then waits. -/
theorem lcdSequence : (lcdSequence s).Inv ∧ (lcdSequence s).LcdAhead := by
  unfold Machine.lcdSequence
  split
  · rename_i hdue
    obtain ⟨u, wait, hu, hwait, e⟩ := lcdStep_writes s
    have hnext : u.lcd.next = s.lcd.next := by rw [hu.frame]
    have hinv := h.lcdWrites hu
    have hahead : ∀ n ∈ some (u.now + wait), u.now < n := fun n hn => by
      rw [← Option.some.inj hn]
      omega
    rw [e]
    refine ⟨{ hinv with
      lcdNotLate := fun n hn => (hahead n hn).le
      lcdEnabled := fun _ => hinv.lcdEnabled ?_ }, hahead⟩
    rw [hnext, hdue]
    exact Option.some_ne_none _
  · rename_i hdue
    refine ⟨h, fun n hn => lt_of_le_of_ne (h.lcdNotLate n hn) ?_⟩
    rintro rfl
    exact hdue hn

/-- What precedes the CPU in a tick. -/
theorem deviceTicks : (deviceTicks s).Inv ∧ (deviceTicks s).LcdAhead :=
  h.deliverHostEvents.timerTick.lcdPowerTest.dmaStep.lcdSequence

/-! ### The CPU -/

theorem setReg (r : Reg8) (v : Byte) : (s.setReg r v).Inv := by
  cases r <;> exact { h with }

theorem cpuWrites {u : State} (w : CpuWrites s u) : u.Inv := by
  induction w with
  | refl => exact h
  | setReg r v _ ih => exact ih.setReg r v
  | setF v hv _ ih => exact { ih with flagsLow := hv }
  | setSp v _ ih => exact { ih with }
  | setIme x _ ih => exact { ih with }
  | setIf v _ ih => exact ih.setIf v
  | busWrite a v _ ih => exact ih.busWrite a v

theorem wakeTest : (wakeTest s).Inv := by
  rcases wakeTest_spec s with ⟨-, -, e⟩ | ⟨-, e⟩ <;> rw [e]
  · exact { h with cpuNotLate := fun n hn => (Option.some.inj hn).le }
  · exact h

/-- The end of a tick: time goes on where both watermarks lie ahead, and stays at a Fatal. -/
theorem advanceNow (ha : s.fatal = none → s.CpuAhead ∧ s.LcdAhead) : (advanceNow s).Inv := by
  rcases advanceNow_spec s with ⟨hf, e⟩ | ⟨-, e⟩ <;> rw [e]
  · obtain ⟨hcpu, hlcd⟩ := ha hf
    exact { h with cpuNotLate := hcpu, lcdNotLate := hlcd }
  · exact h

end

end State.Inv

/-- The writes of an action leave the cycle, and the display's watermark unless they power it down. -/
theorem CpuWrites.now_nextKept {s u : State} (w : CpuWrites s u) : u.now = s.now ∧ LcdNextKept s u := by
  induction w with
  | refl => exact ⟨rfl, .inl rfl⟩
  | setReg r v _ ih =>
    obtain ⟨hn, hk⟩ := ih
    exact ⟨by rw [State.setReg_now, hn], hk.trans (.inl (by rw [State.setReg_lcd]))⟩
  | setF _ _ _ ih | setSp _ _ ih | setIme _ _ ih | setIf _ _ ih => exact ih
  | busWrite a v _ ih =>
    obtain ⟨hn, hk⟩ := ih
    exact ⟨by rw [busWrite_now, hn], hk.trans (busWrite_nextKept _ a v)⟩

/-- After an action of the CPU time can go on: a commit and HALT put the CPU's watermark ahead. -/
theorem CpuAction.advanceNow_inv {s t : State} (act : CpuAction s t) (h : s.Inv) (hl : s.LcdAhead) :
    (advanceNow t).Inv := by
  cases act with
  | @jump u target cost hcost w =>
    obtain ⟨hn, hk⟩ := w.now_nextKept
    have hcpu : (jumpTo target cost u).CpuAhead := fun n hmem => by
      rw [← Option.some.inj hmem]
      exact Nat.lt_add_of_pos_right hcost
    have hinv : (jumpTo target cost u).Inv := { h.cpuWrites w with cpuNotLate := fun n hmem => (hcpu n hmem).le }
    exact hinv.advanceNow fun _ => ⟨hcpu, hl.of_kept hn hk⟩
  | halt target =>
    have hinv : ((s.setPc target).setNext none).Inv := { h with cpuNotLate := nofun }
    exact hinv.advanceNow fun _ => ⟨nofun, hl⟩
  | fatal kind =>
    have hinv : (raiseFatal kind s).Inv := { h with }
    exact hinv.advanceNow nofun

/-- The CPU's tick and the end of the tick, after the devices. -/
theorem onNext_cpuTick_inv {s t : State} (h : s.Inv) (hl : s.LcdAhead) (ht : onNext advanceNow (cpuTick s) = .next t) :
    t.Inv := by
  have hw : (wakeTest s).LcdAhead := by
    rcases wakeTest_spec s with ⟨-, -, e⟩ | ⟨-, e⟩ <;> rw [e] <;> exact hl
  have hnow : (wakeTest s).now = s.now := by
    rcases wakeTest_spec s with ⟨-, -, e⟩ | ⟨-, e⟩ <;> rw [e]
  rcases cpuTick_cases s with ⟨hidle, e⟩ | ⟨-, u, e, act⟩ <;> rw [e] at ht <;> cases ht
  · refine h.wakeTest.advanceNow fun _ => ⟨fun n hn => lt_of_le_of_ne (h.wakeTest.cpuNotLate n hn) ?_, hw⟩
    rintro rfl
    exact hidle (hnow ▸ hn)
  · exact act.advanceNow_inv h.wakeTest hw

/-- Settles O46: every operation of a tick keeps the invariant, the sequencer leaves the display's watermark ahead of `now`, and
an action of the CPU its own. -/
theorem stepKeepsInvariant : Obligations.StepKeepsInvariant := by
  intro s t h hstep
  unfold step at hstep
  split at hstep
  · cases hstep
  · obtain ⟨hinv, hahead⟩ := h.deviceTicks
    exact onNext_cpuTick_inv hinv hahead hstep

end Sys2Proof.Machine
end

section
/-! SUPPORT. The two start states: their fields, and the invariants at both. -/

namespace Sys2Proof.Machine

/-- On the default platform, plain storage that no unit of the core decodes is the work RAM or its echo. -/
theorem workRamCell_of_plainRam {s : State} (hp : s.platform = defaultPlatform) {a : Word} (hc : coreRam a = false)
    (ha : s.plainRam a = true) : coreDecodes a = false ∧ inWindow 0x0000 0x7FFF a = false ∧ ∃ k, workRamCell a = some k := by
  rw [State.plainRam, hc, Bool.false_or, State.server, hp] at ha
  cases hd : coreDecodes a with
  | true => simp [hd] at ha
  | false =>
    cases hrom : inWindow 0x0000 0x7FFF a with
    | true => simp [hd, defaultPlatform, PlatformComponent.mayAnswer, hrom] at ha
    | false =>
      cases hw : workRamCell a with
      | none => simp [hd, defaultPlatform, PlatformComponent.mayAnswer, hrom, hw] at ha
      | some k => exact ⟨rfl, rfl, k, rfl⟩

/-- With nothing stored every bus read of plain storage gives 0x00, on the default platform. -/
theorem busRead_plainRam_of_empty {s : State} (hm : s.mem = []) (hp : s.platform = defaultPlatform) {a : Word}
    (ha : s.plainRam a = true) : busRead s a = 0#8 := by
  cases hc : coreRam a with
  | true =>
    rw [busRead_coreRam s a hc, hm]
    rfl
  | false =>
    obtain ⟨hd, hrom, k, hk⟩ := workRamCell_of_plainRam hp hc ha
    rw [busRead_default s a hp hd, hrom, hk, hm]
    rfl

/-- Every register of the display's bank reads 0x00 at reset (10_state.md R60). -/
theorem busRead_reset_lcdReg {a : Word} (h : 0xFF40 ≤ a.toNat ∧ a.toNat ≤ 0xFF4B) : busRead State.reset a = 0#8 := by
  rw [busRead_lcdReg _ a h]
  have key : ∀ i < 12, (lcdRegRead State.reset.lcd i).getD 0xFF#8 = 0#8 := by decide
  exact key _ (by omega)

/-- The parameters of a run replace the platform and the events of the start state (00_scope.md R8). -/
theorem start_empty_image (launch : LaunchState) (platform : List PlatformComponent) (events : List (Nat × Fin 5)) :
    State.start launch platform events [] = { launch.state with platform := platform, hostEvents := events } := rfl

/-- Settles O44, field by field; the bytes of memory through the bus laws. -/
theorem resetState : Obligations.ResetState := by
  refine ⟨fun r => by cases r <;> rfl, rfl, rfl, rfl, rfl, rfl, rfl, rfl, rfl, ?_, ?_, rfl, rfl, rfl, rfl, rfl, rfl, rfl, rfl,
    rfl, rfl, rfl, ?_, rfl⟩
  · exact fun a hlow hhigh => busRead_reset_lcdReg ⟨hlow, hhigh⟩
  · exact fun a ha => busRead_plainRam_of_empty rfl rfl ha
  · exact fun platform events => ⟨start_empty_image .reset platform events, start_empty_image .postBoot platform events⟩

theorem reset_inv : State.reset.Inv where
  memCanonical := rfl
  memOnStorage := rfl
  platformCanonical := rfl
  flagsLow := rfl
  counterLow := rfl
  lineRange := Nat.zero_le _
  dmaRange := Nat.le_refl _
  dmaLatched := rfl
  frameCurShape := ⟨List.length_replicate, fun row hrow => by
    rw [List.eq_of_mem_replicate hrow]
    exact List.length_replicate⟩
  frameNextShape := builderShape_fresh
  cpuNotLate := fun _ _ => Nat.zero_le _
  lcdNotLate := nofun
  lcdEnabled := fun hn => absurd rfl hn

/-- A display that is off is on any schedule; the frame builder has its slots. -/
theorem scheduleInv_of_off {s : State} (hs : builderShape s.lcd.frameNext) (hoff : s.lcd.next = none) : s.ScheduleInv :=
  ⟨hs.1, fun hon => absurd hoff hon⟩

theorem postBoot_inv : State.postBoot.Inv :=
  { reset_inv with
    flagsLow := rfl
    counterLow := rfl
    lcdEnabled := fun hn => absurd rfl hn }

/-- Settles O45: at both start states nothing is stored, no watermark is late, and the display is off. -/
theorem resetHasInvariants : Obligations.ResetHasInvariants :=
  ⟨reset_inv, scheduleInv_of_off reset_inv.frameNextShape rfl, postBoot_inv,
    scheduleInv_of_off postBoot_inv.frameNextShape rfl⟩

end Sys2Proof.Machine
end

section
/-! SUPPORT. The read side of the address map, in the statements' own ranges (20_memory.md R73 to R77, R84, R85, R90). -/

namespace Sys2Proof.Machine

open Sys2Proof.Spec

/-- The core's storage is what the model calls so. -/
theorem coreRam_of_coreStorage {a : Word} (h : coreStorage a) : coreRam a = true := (coreRam_iff a).2 h

/-- No unit of the core decodes an address of the platform. -/
theorem coreDecodes_of_platformAddress {a : Word} (h : platformAddress a) : coreDecodes a = false := by
  obtain ⟨hs, hr⟩ := h
  rw [Bool.eq_false_iff, Ne, coreDecodes_iff]
  unfold coreStorage at hs
  unfold coreRegister at hr
  have hlt := a.isLt
  omega

/-- The two windows of the work RAM, as ranges. -/
theorem workRamCell_eq (a : Word) :
    workRamCell a =
      if 0xC000 ≤ a.toNat ∧ a.toNat ≤ 0xDFFF then some a.toNat
      else if 0xE000 ≤ a.toNat ∧ a.toNat ≤ 0xFDFF then some (a.toNat - 0x2000) else none := by
  simp only [workRamCell, inWindow, decide_eq_true_eq]

theorem platformRead_cartridge (s : State) (a : Word) :
    platformRead s a .cartridge = if a.toNat ≤ 0x7FFF then some (s.mem.read a.toNat) else none := by
  simp [platformRead, inWindow]

theorem platformRead_workRam (s : State) (a : Word) :
    platformRead s a .workRam =
      if 0xC000 ≤ a.toNat ∧ a.toNat ≤ 0xDFFF then some (s.mem.read a.toNat)
      else if 0xE000 ≤ a.toNat ∧ a.toNat ≤ 0xFDFF then some (s.mem.read (a.toNat - 0x2000))
      else none := by
  simp only [platformRead, workRamCell_eq, apply_ite (Option.map s.mem.read), Option.map_some, Option.map_none]

theorem platformRead_memory (s : State) (a : Word) (first last : Nat) (writable : Bool) (cells : Memory) :
    platformRead s a (.memory first last writable cells) =
      if first ≤ a.toNat ∧ a.toNat ≤ last then some (cells.read a.toNat) else none := by
  simp only [platformRead, inWindow, decide_eq_true_eq]

/-- With the default platform the echo reads what stands 0x2000 below it (20_memory.md R90). -/
theorem busRead_echo_below {s : State} (hp : s.platform = defaultPlatform) {a : Word}
    (h : 0xE000 ≤ a.toNat ∧ a.toNat ≤ 0xFDFF) : busRead s a = busRead s (a - 0x2000#16) := by
  have hbelow : (a - 0x2000#16).toNat = a.toNat - 0x2000 := by bv_omega
  rw [busRead_echo s a hp h, busRead_storage s _ hp (by rw [isStorage_iff]; omega), hbelow]

/-- Settles O50, region by region through the laws of the bus. -/
theorem busReadMap : Obligations.BusReadMap := by
  intro s a
  refine ⟨fun h => busRead_coreRam s a (coreRam_of_coreStorage h),
    fun h => busRead_platform s a (coreDecodes_of_platformAddress h), platformRead_cartridge s a, platformRead_workRam s a,
    platformRead_memory s a, fun _ _ => rfl, fun hp => ⟨fun h => ?_, busRead_echo_below hp, fun hrom h => ?_⟩,
    busRead_div s, busRead_tima s, busRead_tma s, busRead_tac s, busRead_if s, busRead_ie s, busRead_lcdc s, busRead_stat s,
    busRead_scy s, busRead_scx s, busRead_ly s, busRead_lyc s, busRead_dma s, busRead_bgp s, busRead_obp0 s, busRead_obp1 s,
    busRead_wy s, busRead_wx s⟩
  · exact busRead_storage s a hp (by rw [isStorage_iff]; omega)
  · exact busRead_open s a hp (h.resolve_left (by omega))

end Sys2Proof.Machine
end

section
/-! SUPPORT. What the platform's part of a bus write stores, component by component, and which component serves a read before
and after it (20_memory.md R73, R74, R90, R91). -/

namespace Sys2Proof.Machine

/-! ## What each part of the state becomes -/

/-- The work RAM stores at either of its windows. -/
theorem componentWrite_workRam_eq (a : Word) (v : Byte) (s : State) :
    PlatformComponent.write a v s .workRam =
      (.workRam,
        { s with
          mem :=
            if 0xC000 ≤ a.toNat ∧ a.toNat ≤ 0xDFFF then s.mem.write a.toNat v
            else if 0xE000 ≤ a.toNat ∧ a.toNat ≤ 0xFDFF then s.mem.write (a.toNat - 0x2000) v
            else s.mem }) := by
  simp only [PlatformComponent.write, workRamCell_eq]
  split_ifs <;> rfl

/-- A component specified only at its boundary changes its own state and sets bits of IF. -/
theorem componentWrite_external (a : Word) (v : Byte) (s : State) (number own : Nat) :
    PlatformComponent.write a v s (.external number own) =
      (.external number (Config.externalWrite number own s.now a v).1,
        { s with
          cpu := { s.cpu with ifReg := (requestAll (Config.externalWrite number own s.now a v).2 s).cpu.ifReg } }) := by
  rw [PlatformComponent.write, ← requestAll_spec]

theorem componentWrite_workRam (a : Word) (v : Byte) (s : State) : (PlatformComponent.write a v s .workRam).1 = .workRam := by
  rw [componentWrite_workRam_eq]

/-- A component's next own state depends on the cycle alone. -/
theorem componentWrite_component_congr (a : Word) (v : Byte) {s t : State} (hn : t.now = s.now) (c : PlatformComponent) :
    (PlatformComponent.write a v t c).1 = (PlatformComponent.write a v s c).1 := by
  cases c with
  | cartridge => rfl
  | workRam => rw [componentWrite_workRam, componentWrite_workRam]
  | memory first last writable cells => rfl
  | external number own => rw [componentWrite_external, componentWrite_external, hn]

/-- Each component of the list after a write is what its own write leaves of it. -/
theorem writeEach_components (a : Word) (v : Byte) (l : List PlatformComponent) (s : State) :
    (writeEach a v l s).1 = l.map fun c => (PlatformComponent.write a v s c).1 := by
  induction l generalizing s with
  | nil => rfl
  | cons c l ih =>
    have hnow : (PlatformComponent.write a v s c).2.now = s.now := by
      rw [(componentWrite_frame a v s c).2]
    simp only [writeEach, List.map_cons, ih, componentWrite_component_congr a v hnow]

/-- The attached list after a write. -/
theorem platformWrite_platform (a : Word) (v : Byte) (s : State) :
    (platformWrite a v s).platform = s.platform.map fun c => (PlatformComponent.write a v s c).1 :=
  writeEach_components a v s.platform s

/-- Of the components only the work RAM stores in the machine's storage, the byte at its cell of the address. -/
theorem componentWrite_mem (a : Word) (v : Byte) (s : State) (c : PlatformComponent) :
    (c = .workRam ∧ ∃ k, workRamCell a = some k ∧ (PlatformComponent.write a v s c).2.mem = s.mem.write k v) ∨
    ((c = .workRam → workRamCell a = none) ∧ (PlatformComponent.write a v s c).2.mem = s.mem) := by
  cases c with
  | cartridge => exact .inr ⟨nofun, rfl⟩
  | workRam =>
    cases hk : workRamCell a with
    | none => exact .inr ⟨fun _ => rfl, by simp only [PlatformComponent.write, hk]⟩
    | some k => exact .inl ⟨rfl, k, rfl, by simp only [PlatformComponent.write, hk]⟩
  | memory first last writable cells => exact .inr ⟨nofun, rfl⟩
  | external number own => exact .inr ⟨nofun, by rw [componentWrite_external]⟩

/-- A byte of the storage that is not the work RAM's at the address is as before. -/
theorem writeEach_read_ne (a : Word) (v : Byte) (l : List PlatformComponent) (s : State) {n : Nat}
    (h : workRamCell a ≠ some n) : (writeEach a v l s).2.mem.read n = s.mem.read n := by
  induction l generalizing s with
  | nil => rfl
  | cons c l ih =>
    refine (ih _).trans ?_
    rcases componentWrite_mem a v s c with ⟨-, k, hk, e⟩ | ⟨-, e⟩ <;> rw [e]
    exact Memory.read_write_ne _ _ _ _ fun hkn => h (hkn ▸ hk)

/-- An attached work RAM stores the byte at its cell, and what follows it in the list keeps the byte there. -/
theorem writeEach_read_workRam (a : Word) (v : Byte) (l : List PlatformComponent) (s : State) {n : Nat}
    (h : workRamCell a = some n) (hw : s.mem.wf = true) (hl : .workRam ∈ l ∨ s.mem.read n = v) :
    (writeEach a v l s).2.mem.read n = v := by
  induction l generalizing s with
  | nil => exact hl.resolve_left List.not_mem_nil
  | cons c l ih =>
    rcases componentWrite_mem a v s c with ⟨-, k, hk, e⟩ | ⟨hc, e⟩
    · obtain rfl : k = n := Option.some.inj (hk.symm.trans h)
      exact ih _ (e ▸ Memory.wf_write _ _ _ hw) (.inr (e ▸ Memory.read_write_self _ _ _ hw))
    · have hne : .workRam ≠ c := fun hcw => Option.some_ne_none n (h.symm.trans (hc hcw.symm))
      exact ih _ (e ▸ hw) (e ▸ hl.imp_left fun hm => (List.mem_cons.1 hm).resolve_left hne)

/-- One component's write leaves IF, unless the component is specified only at its boundary (20_memory.md R91). -/
theorem componentWrite_ifReg (a : Word) (v : Byte) (s : State) {c : PlatformComponent} (hc : c.isExternal = false) :
    (PlatformComponent.write a v s c).2.cpu.ifReg = s.cpu.ifReg := by
  cases c with
  | cartridge => rfl
  | workRam => rw [componentWrite_workRam_eq]
  | memory first last writable cells => rfl
  | external number own => cases hc

/-- Without a component specified only at its boundary a write leaves IF. -/
theorem writeEach_ifReg (a : Word) (v : Byte) (l : List PlatformComponent) (s : State)
    (h : l.any PlatformComponent.isExternal = false) : (writeEach a v l s).2.cpu.ifReg = s.cpu.ifReg := by
  induction l generalizing s with
  | nil => rfl
  | cons c l ih =>
    rw [List.any_cons, Bool.or_eq_false_iff] at h
    obtain ⟨hc, hl⟩ := h
    exact (ih _ hl).trans (componentWrite_ifReg a v s hc)

theorem platformWrite_read_ne (a : Word) (v : Byte) (s : State) {n : Nat} (h : workRamCell a ≠ some n) :
    (platformWrite a v s).mem.read n = s.mem.read n := writeEach_read_ne a v s.platform s h

theorem platformWrite_read_workRam (a : Word) (v : Byte) (s : State) {n : Nat} (h : workRamCell a = some n)
    (hw : s.mem.wf = true) (hl : .workRam ∈ s.platform) : (platformWrite a v s).mem.read n = v :=
  writeEach_read_workRam a v s.platform s h hw (.inl hl)

theorem platformWrite_ifReg (a : Word) (v : Byte) (s : State) (h : s.platform.any PlatformComponent.isExternal = false) :
    (platformWrite a v s).cpu.ifReg = s.cpu.ifReg := writeEach_ifReg a v s.platform s h

/-! ## Which component serves a read -/

/-- Where a described component may answer, it answers, and elsewhere none but one specified at its boundary does. -/
theorem platformRead_isSome (s : State) (a : Word) {c : PlatformComponent} (hc : c.isExternal = false) :
    (platformRead s a c).isSome = c.mayAnswer a := by
  cases c with
  | cartridge => simp only [platformRead, PlatformComponent.mayAnswer]; split <;> simp_all
  | workRam => exact Option.isSome_map
  | memory first last writable cells => simp only [platformRead, PlatformComponent.mayAnswer]; split <;> simp_all
  | external number own => cases hc

/-- Unless the first component that may answer is specified only at its boundary, it gives the platform's answer. -/
theorem findSome_platformRead (s : State) (a : Word) (l : List PlatformComponent)
    (h : (l.find? (PlatformComponent.mayAnswer a)).any PlatformComponent.isExternal = false) :
    l.findSome? (platformRead s a) = (l.find? (PlatformComponent.mayAnswer a)).bind (platformRead s a) := by
  induction l with
  | nil => rfl
  | cons c l ih =>
    cases hm : c.mayAnswer a with
    | true =>
      rw [List.find?_cons_of_pos hm] at h ⊢
      obtain ⟨x, hx⟩ := Option.isSome_iff_exists.1 ((platformRead_isSome s a h).trans hm)
      rw [List.findSome?_cons_of_isSome (by rw [hx]; rfl)]
      rfl
    | false =>
      have hc : c.isExternal = false := by
        cases c with
        | external number own => cases hm
        | _ => rfl
      have hn : platformRead s a c = none := by
        rw [← Option.isNone_iff_eq_none, ← Option.isSome_eq_false_iff, platformRead_isSome s a hc, hm]
      rw [List.find?_cons_of_neg (by simp [hm])] at h ⊢
      rw [List.findSome?_cons_of_isNone (by rw [hn]; rfl)]
      exact ih h

/-- A read outside the core that is not served externally is its server's answer, or the open bus. -/
theorem busRead_server (s : State) (a : Word) (hc : coreDecodes a = false) (h : s.servedExternally a = false) :
    busRead s a = ((s.server a).bind (platformRead s a)).getD 0xFF#8 := by
  have hs : s.server a = s.platform.find? (PlatformComponent.mayAnswer a) := by rw [State.server, hc]; rfl
  rw [State.servedExternally, hs] at h
  rw [busRead_platform s a hc, hs, findSome_platformRead s a _ h]

/-- What a server is: attached, at an address that the core leaves to the platform and that it may answer. -/
theorem server_some {s : State} {a : Word} {c : PlatformComponent} (h : s.server a = some c) :
    coreDecodes a = false ∧ c ∈ s.platform ∧ c.mayAnswer a = true := by
  unfold State.server at h
  split at h
  case isTrue => cases h
  case isFalse hc => exact ⟨Bool.eq_false_iff.2 hc, List.mem_of_find?_eq_some h, List.find?_some h⟩

/-- A described server's byte is what the read gives. -/
theorem busRead_of_server {s : State} {a : Word} {c : PlatformComponent} (h : s.server a = some c)
    (hc : c.isExternal = false) : busRead s a = (platformRead s a c).getD 0xFF#8 := by
  rw [busRead_server s a (server_some h).1 (by rw [State.servedExternally, h]; exact hc), h]
  rfl

/-- An externally served address needs a component that is specified only at its boundary. -/
theorem any_isExternal_of_servedExternally {s : State} {a : Word} (h : s.servedExternally a = true) :
    s.platform.any PlatformComponent.isExternal = true := by
  obtain ⟨c, hc, he⟩ := Option.any_eq_true _ _ |>.1 h
  exact List.any_eq_true.2 ⟨c, (server_some hc).2.1, he⟩

/-- After the platform's part of a write the same place of the list serves an address, with its own write's effect. -/
theorem server_platformWrite (a : Word) (v : Byte) (s : State) (b : Word) :
    (platformWrite a v s).server b = (s.server b).map fun c => (PlatformComponent.write a v s c).1 := by
  unfold State.server
  split
  · rfl
  · have hp : PlatformComponent.mayAnswer b ∘ (fun c => (PlatformComponent.write a v s c).1) =
        PlatformComponent.mayAnswer b :=
      funext fun c => mayAnswer_of_kind b _ _ (componentWrite_frame a v s c).1
    rw [platformWrite_platform, List.find?_map, hp]

end Sys2Proof.Machine
end

section
/-! SUPPORT. What a bus read gives after a bus write: the core's part of the write, then the platform's, and the two together
(20_memory.md R73, R74, R83, R90; 48_timer.md R327 to R330; 49_display.md R352 to R357). -/

namespace Sys2Proof.Machine

/-! ## A read of a byte that a store does not touch -/

/-- What not being touched says of the address read. -/
theorem untouched {s : State} {a b : Word} (h : s.touches a b = false) :
    a ≠ b ∧ mirrors a b = false ∧ b ∉ sideAddresses a ∧
      (b = 0xFF0F#16 → s.platform.any PlatformComponent.isExternal = false) ∧ s.servedExternally b = false := by
  simp only [State.touches, Bool.or_eq_false_iff, beq_eq_false_iff_ne, Bool.and_eq_false_iff, List.contains_eq_mem,
    decide_eq_false_iff_not] at h
  obtain ⟨⟨⟨hne, hmirror⟩, hside⟩, hext⟩ := h
  refine ⟨hne, hmirror, hside, fun hb => hext.resolve_right fun hr => hr.1 hb, ?_⟩
  cases hserved : s.servedExternally b with
  | false => rfl
  | true =>
    rcases hext with hany | ⟨-, hnot⟩
    · exact absurd (any_isExternal_of_servedExternally hserved) (by simp [hany])
    · exact absurd hserved (by simp [hnot])

/-! ### The platform's part -/

/-- Outside the work RAM's window an address is no cell of the work RAM. -/
theorem workRamCell_ne {a : Word} {n : Nat} (h : n < 0xC000 ∨ 0xDFFF < n) : workRamCell a ≠ some n := fun hk => by
  have hrange := workRamCell_range a n hk
  omega

/-- A described component answers as before where the write touches nothing. -/
theorem platformRead_platformWrite {a b : Word} (v : Byte) (s : State) (hne : a ≠ b) (hmirror : mirrors a b = false)
    {c : PlatformComponent} (hc : c.isExternal = false) :
    platformRead (platformWrite a v s) b (PlatformComponent.write a v s c).1 = platformRead s b c := by
  cases c with
  | cartridge =>
    show platformRead _ b .cartridge = _
    rw [platformRead_cartridge, platformRead_cartridge]
    split
    · rw [platformWrite_read_ne a v s (workRamCell_ne (by omega))]
    · rfl
  | workRam =>
    rw [componentWrite_workRam]
    show (workRamCell b).map _ = (workRamCell b).map _
    cases hk : workRamCell b with
    | none => rfl
    | some k =>
      have hcell : workRamCell a ≠ some k := fun ha => by simp [mirrors, ha, hk] at hmirror
      exact congrArg some (platformWrite_read_ne a v s hcell)
  | memory first last writable cells =>
    have hread : (cells.write a.toNat v).read b.toNat = cells.read b.toNat :=
      Memory.read_write_ne _ _ _ _ fun h => hne (BitVec.eq_of_toNat_eq h)
    simp only [PlatformComponent.write, platformRead]
    split
    · split <;> simp [hread]
    · rfl
  | external number own => cases hc

/-- What is served externally is so by a component's kind. -/
theorem servedExternally_platformWrite (a : Word) (v : Byte) (s : State) (b : Word) :
    (platformWrite a v s).servedExternally b = s.servedExternally b := by
  unfold State.servedExternally
  rw [server_platformWrite, Option.any_map]
  congr 1
  exact funext fun c => isExternal_of_kind _ _ (componentWrite_frame a v s c).1

/-- The platform's part of a write is not seen by a read of a byte it does not touch. -/
theorem busRead_platformWrite {a b : Word} (v : Byte) (s : State) (hne : a ≠ b) (hmirror : mirrors a b = false)
    (hif : b = 0xFF0F#16 → s.platform.any PlatformComponent.isExternal = false) (hext : s.servedExternally b = false) :
    busRead (platformWrite a v s) b = busRead s b := by
  cases hc : coreDecodes b with
  | false =>
    rw [busRead_server _ b hc hext, busRead_server _ b hc (by rw [servedExternally_platformWrite, hext]),
      server_platformWrite]
    rw [State.servedExternally] at hext
    cases hs : s.server b with
    | none => rfl
    | some c => exact congrArg (Option.getD · _) (platformRead_platformWrite v s hne hmirror (by rwa [hs] at hext))
  | true =>
    rcases core_cases b hc with hram | (rfl | hreg) | hbank
    · rw [busRead_coreRam _ b hram, busRead_coreRam _ b hram]
      rw [coreRam_iff] at hram
      exact platformWrite_read_ne a v s (workRamCell_ne (by omega))
    · rw [busRead_if, busRead_if, platformWrite_ifReg a v s (hif rfl)]
    · rw [platformWrite_frame]
      rcases hreg with rfl | rfl | rfl | rfl | rfl <;> rfl
    · rw [platformWrite_frame, busRead_lcdReg _ b hbank, busRead_lcdReg _ b hbank]

/-! ### The core's part -/

/-- An edge-bracketed change of the Timer is seen at TIMA and IF, and at a register that the change itself writes. -/
theorem busRead_timerChange (r : Timer) (s : State) {b : Word} (htima : b ≠ 0xFF05#16) (hif : b ≠ 0xFF0F#16)
    (hdiv : r.counter = s.timer.counter ∨ b ≠ 0xFF04#16) (htma : r.tma = s.timer.tma)
    (htac : r.tac = s.timer.tac ∨ b ≠ 0xFF07#16) : busRead (timerChange r s) b = busRead s b := by
  rcases timerChange_spec r s with e | ⟨-, e⟩ | e <;> rw [e] <;>
    exact busRead_registers _ _ b rfl rfl rfl (.inr hif) (.inl rfl) (hdiv.imp_left (congrArg hi)) (.inr htima)
      (.inl htma) htac fun _ _ => .inl rfl

/-- A change of IF and of the display's registers at offsets 0, 1, 4 and 5 of its bank is seen at those that changed. -/
theorem busRead_setLcd (s : State) (ifReg lcdc stat ly lyc : Byte) (next : Option Nat) {b : Word}
    (hif : ifReg = s.cpu.ifReg ∨ b ≠ 0xFF0F#16) (hlcdc : lcdc = s.lcd.lcdc ∨ b ≠ 0xFF40#16)
    (hstat : stat = s.lcd.stat ∨ b ≠ 0xFF41#16) (hly : ly = s.lcd.ly ∨ b ≠ 0xFF44#16)
    (hlyc : lyc = s.lcd.lyc ∨ b ≠ 0xFF45#16) :
    busRead
      { s with
        cpu := { s.cpu with ifReg := ifReg }
        lcd := { s.lcd with lcdc := lcdc, stat := stat, ly := ly, lyc := lyc, next := next } } b = busRead s b := by
  refine busRead_registers _ _ b rfl rfl rfl hif (.inl rfl) (.inl rfl) (.inl rfl) (.inl rfl) (.inl rfl) fun i _ => ?_
  have at_offset : ∀ {x y : Byte} {c : Word}, x = y ∨ b ≠ c → c.toNat = 0xFF40 + i →
      some x = some y ∨ b.toNat ≠ 0xFF40 + i :=
    fun h hc => h.imp (congrArg some) fun hb he => hb (BitVec.eq_of_toNat_eq (he.trans hc.symm))
  unfold lcdRegRead
  split
  case h_1 => exact at_offset hlcdc rfl
  case h_2 => exact at_offset hstat rfl
  case h_5 => exact at_offset hly rfl
  case h_6 => exact at_offset hlyc rfl
  all_goals exact .inl rfl

/-- The LY/LYC comparison is seen at STAT and IF (49_display.md R359). -/
theorem busRead_lcdCompare (s : State) {b : Word} (hstat : b ≠ 0xFF41#16) (hif : b ≠ 0xFF0F#16) :
    busRead (lcdCompare s) b = busRead s b := by
  rcases lcdCompare_spec s with ⟨-, -, e⟩ | ⟨-, -, e⟩ | ⟨-, e⟩ <;> rw [e] <;>
    exact busRead_setLcd s _ _ _ _ _ _ (.inr hif) (.inl rfl) (.inr hstat) (.inl rfl) (.inl rfl)

/-- A write to LYC is seen at LYC, STAT and IF (49_display.md R357). -/
theorem busRead_lcdWriteLyc (v : Byte) (s : State) {b : Word} (hlyc : b ≠ 0xFF45#16) (hstat : b ≠ 0xFF41#16)
    (hif : b ≠ 0xFF0F#16) : busRead (lcdWriteLyc v s) b = busRead s b :=
  (busRead_lcdCompare _ hstat hif).trans
    (busRead_setLcd s _ _ _ _ v _ (.inl rfl) (.inl rfl) (.inl rfl) (.inl rfl) (.inr hlyc))

/-- A write to LCDC, with the power-down it may cause, is seen at LCDC, STAT, LY and IF (49_display.md R353, R364). -/
theorem busRead_lcdWriteLcdc (v : Byte) (s : State) {b : Word} (hlcdc : b ≠ 0xFF40#16) (hstat : b ≠ 0xFF41#16)
    (hly : b ≠ 0xFF44#16) (hif : b ≠ 0xFF0F#16) : busRead (lcdWriteLcdc v s) b = busRead s b := by
  unfold lcdWriteLcdc
  simp only
  split
  · rw [lcdPowerDown_eq, busRead_lcdCompare _ hstat hif]
    exact busRead_setLcd s _ v _ _ _ none (.inl rfl) (.inr hlcdc) (.inr hstat) (.inr hly) (.inl rfl)
  · exact busRead_setLcd s _ v _ _ _ _ (.inl rfl) (.inr hlcdc) (.inl rfl) (.inl rfl) (.inl rfl)

/-- Of the display's registers only LCDC and LYC react with more than the display's own fields. -/
theorem lcdRegWrite_lcd {i : Nat} (v : Byte) (s : State) (h0 : i ≠ 0) (h5 : i ≠ 5) :
    lcdRegWrite i v s = { s with lcd := (lcdRegWrite i v s).lcd } := by
  unfold lcdRegWrite
  split
  case h_1 => exact absurd rfl h0
  case h_6 => exact absurd rfl h5
  all_goals rfl

/-- Any register but LCDC and LYC is stored alone. -/
theorem lcdRegRead_lcdRegWrite {i : Nat} (v : Byte) (s : State) (h0 : i ≠ 0) (h5 : i ≠ 5) :
    ∀ j ≠ i, lcdRegRead (lcdRegWrite i v s).lcd j = lcdRegRead s.lcd j := by
  intro j hj
  unfold lcdRegWrite
  split
  case h_1 => exact absurd rfl h0
  case h_6 => exact absurd rfl h5
  -- The stored register itself is excluded, and the others are untouched fields.
  all_goals
    unfold lcdRegRead
    split <;> first | exact absurd rfl hj | rfl

/-- A write to any register of the bank but LCDC and LYC is seen there alone. -/
theorem busRead_lcdRegWrite_stored {i : Nat} (v : Byte) (s : State) (h0 : i ≠ 0) (h5 : i ≠ 5) {b : Word}
    (hb : b.toNat ≠ 0xFF40 + i) : busRead (lcdRegWrite i v s) b = busRead s b := by
  have hlcd := lcdRegRead_lcdRegWrite v s h0 h5
  rw [lcdRegWrite_lcd v s h0 h5]
  refine busRead_registers _ _ b rfl rfl rfl (.inl rfl) (.inl rfl) (.inl rfl) (.inl rfl) (.inl rfl) (.inl rfl) fun j _ => ?_
  by_cases hj : j = i
  · exact .inr (hj ▸ hb)
  · exact .inl (hlcd j hj)

/-- A write to a register of the display's bank is seen there and at the side addresses. -/
theorem busRead_lcdRegWrite {a b : Word} (v : Byte) (s : State) (ha : 0xFF40 ≤ a.toNat ∧ a.toNat ≤ 0xFF4B) (hne : a ≠ b)
    (hside : b ∉ sideAddresses a) : busRead (lcdRegWrite (a.toNat - 0xFF40) v s) b = busRead s b := by
  by_cases hlcdc : a = 0xFF40#16
  · subst hlcdc
    obtain ⟨hstat, hly, hif⟩ : b ≠ 0xFF41#16 ∧ b ≠ 0xFF44#16 ∧ b ≠ 0xFF0F#16 := by
      simpa [sideAddresses] using hside
    rw [show (0xFF40#16 : Word).toNat - 0xFF40 = 0 from rfl]
    exact busRead_lcdWriteLcdc v s hne.symm hstat hly hif
  by_cases hlyc : a = 0xFF45#16
  · subst hlyc
    obtain ⟨hstat, hif⟩ : b ≠ 0xFF41#16 ∧ b ≠ 0xFF0F#16 := by simpa [sideAddresses] using hside
    rw [show (0xFF45#16 : Word).toNat - 0xFF40 = 5 from rfl]
    exact busRead_lcdWriteLyc v s hne.symm hstat hif
  · have h0 : a.toNat - 0xFF40 ≠ 0 := by bv_omega
    have h5 : a.toNat - 0xFF40 ≠ 5 := by bv_omega
    exact busRead_lcdRegWrite_stored v s h0 h5 (by bv_omega)

/-- `u` is what the units of the core leave of a write before the platform gets it: they store it in the core's storage or in
registers, and what a read sees of that is the address and its side addresses. -/
structure CoreStore (s : State) (a : Word) (v : Byte) (u : State) : Prop where
  delivers : busWrite s a v = platformWrite a v u
  platform : u.platform = s.platform
  mem : u.mem = s.mem ∨ coreRam a = true ∧ u.mem = s.mem.write a.toNat v
  reads : ∀ b : Word, a ≠ b → b ∉ sideAddresses a → busRead u b = busRead s b

/-- Every bus write is the core's part and then the platform's (20_memory.md R71, R74). -/
theorem busWrite_coreStore (s : State) (a : Word) (v : Byte) : ∃ u, CoreStore s a v u := by
  cases hc : coreDecodes a with
  | false => exact ⟨s, busWrite_platform s a v hc, rfl, .inl rfl, fun _ _ _ => rfl⟩
  | true =>
    rcases core_cases a hc with hram | (rfl | rfl | rfl | rfl | rfl | rfl) | hbank
    · refine ⟨_, busWrite_coreRam s a v hram, rfl, .inr ⟨hram, rfl⟩, fun b hne _ => ?_⟩
      rw [coreRam_iff] at hram
      refine busRead_memWrite_ne s _ v b (by bv_omega) fun j hj => ?_
      have hrange := workRamCell_range b j hj
      omega
    · exact ⟨_, busWrite_if s v, rfl, .inl rfl, fun b hne _ => busRead_registers _ _ b rfl rfl rfl (.inr hne.symm)
        (.inl rfl) (.inl rfl) (.inl rfl) (.inl rfl) (.inl rfl) fun _ _ => .inl rfl⟩
    · exact ⟨_, busWrite_ie s v, rfl, .inl rfl, fun b hne _ => busRead_registers _ _ b rfl rfl rfl (.inl rfl)
        (.inr hne.symm) (.inl rfl) (.inl rfl) (.inl rfl) (.inl rfl) fun _ _ => .inl rfl⟩
    · refine ⟨_, busWrite_div s v, timerChange_platform _ _, .inl (timerChange_rest _ _).2.1, fun b hne hside => ?_⟩
      obtain ⟨htima, hif⟩ : b ≠ 0xFF05#16 ∧ b ≠ 0xFF0F#16 := by simpa [sideAddresses] using hside
      exact busRead_timerChange _ _ htima hif (.inr hne.symm) rfl (.inl rfl)
    · exact ⟨_, busWrite_tima s v, rfl, .inl rfl, fun b hne _ => busRead_registers _ _ b rfl rfl rfl (.inl rfl)
        (.inl rfl) (.inl rfl) (.inr hne.symm) (.inl rfl) (.inl rfl) fun _ _ => .inl rfl⟩
    · exact ⟨_, busWrite_tma s v, rfl, .inl rfl, fun b hne _ => busRead_registers _ _ b rfl rfl rfl (.inl rfl)
        (.inl rfl) (.inl rfl) (.inl rfl) (.inr hne.symm) (.inl rfl) fun _ _ => .inl rfl⟩
    · refine ⟨_, busWrite_tac s v, timerChange_platform _ _, .inl (timerChange_rest _ _).2.1, fun b hne hside => ?_⟩
      obtain ⟨htima, hif⟩ : b ≠ 0xFF05#16 ∧ b ≠ 0xFF0F#16 := by simpa [sideAddresses] using hside
      exact busRead_timerChange _ _ htima hif (.inl rfl) rfl (.inr hne.symm)
    · exact ⟨_, busWrite_lcdReg s a v hbank, lcdRegWrite_platform _ v s, .inl (lcdRegWrite_frame _ v s).2.2.1,
        fun b hne hside => busRead_lcdRegWrite v s hbank hne hside⟩

/-- A byte that a store does not touch reads as before (20_memory.md R83). -/
theorem busRead_busWrite_untouched {s : State} {a b : Word} (v : Byte) (h : s.touches a b = false) :
    busRead (busWrite s a v) b = busRead s b := by
  obtain ⟨hne, hmirror, hside, hif, hext⟩ := untouched h
  obtain ⟨u, hu⟩ := busWrite_coreStore s a v
  have hserved : u.servedExternally b = s.servedExternally b := by
    unfold State.servedExternally State.server
    rw [hu.platform]
  rw [hu.delivers, busRead_platformWrite v u hne hmirror (hu.platform ▸ hif) (hserved.trans hext), hu.reads b hne hside]

end Sys2Proof.Machine
end

section
/-! SUPPORT. What a bus write leaves to be read back, and how the platform gets it, component after component (20_memory.md R74,
R83, R85, R90, R91). -/

namespace Sys2Proof.Machine

open Sys2Proof.Spec

/-! ## Reading a byte back -/

/-- What plain memory is: the core's storage, or what the work RAM or a writable memory serves. -/
theorem plainRam_cases {s : State} {a : Word} (h : s.plainRam a = true) :
    coreRam a = true ∨ s.server a = some .workRam ∨
      ∃ first last cells, s.server a = some (.memory first last true cells) := by
  rw [State.plainRam, Bool.or_eq_true] at h
  rcases h with h | h
  · exact .inl h
  · split at h
    · exact .inr (.inl ‹_›)
    · subst h
      exact .inr (.inr ⟨_, _, _, ‹_›⟩)
    · cases h

/-- The core's storage reads the byte back. -/
theorem busRead_busWrite_coreRam {s : State} {a : Word} (v : Byte) (ha : coreRam a = true) (hw : s.mem.wf = true) :
    busRead (busWrite s a v) a = v := by
  have hcell : workRamCell a ≠ some a.toNat := workRamCell_ne (by rw [coreRam_iff] at ha; omega)
  rw [busWrite_coreRam s a v ha, busRead_coreRam _ a ha, platformWrite_read_ne _ _ _ hcell]
  exact Memory.read_write_self _ _ _ hw

/-- The work RAM reads the byte back at each of the two addresses of its cell. -/
theorem busRead_busWrite_workRam {s : State} {a b : Word} (v : Byte) (ha : s.server a = some .workRam)
    (hb : s.server b = some .workRam) (hw : s.mem.wf = true) (hcell : workRamCell b = workRamCell a) :
    busRead (busWrite s a v) b = v := by
  obtain ⟨hcore, hmem, hanswer⟩ := server_some ha
  obtain ⟨k, hk⟩ := Option.isSome_iff_exists.1 hanswer
  have hserver : (platformWrite a v s).server b = some .workRam := by
    rw [server_platformWrite, hb, Option.map_some, componentWrite_workRam]
  rw [busWrite_platform s a v hcore, busRead_of_server hserver rfl, platformRead, hcell, hk]
  exact platformWrite_read_workRam a v s hk hw hmem

/-- A writable memory of the platform reads the byte back. -/
theorem busRead_busWrite_memory {s : State} {a : Word} (v : Byte) {first last : Nat} {cells : Memory}
    (ha : s.server a = some (.memory first last true cells)) (hw : s.platform.all PlatformComponent.wf = true) :
    busRead (busWrite s a v) a = v := by
  obtain ⟨hcore, hmem, hwindow⟩ := server_some ha
  have hwindow : inWindow first last a = true := hwindow
  have hserver : (platformWrite a v s).server a = some (.memory first last true (cells.write a.toNat v)) := by
    rw [server_platformWrite, ha, Option.map_some, PlatformComponent.write, hwindow]
    rfl
  have hcells : cells.wf = true := by
    have h := List.all_eq_true.1 hw _ hmem
    rw [PlatformComponent.wf, Bool.and_eq_true] at h
    exact h.1
  rw [busWrite_platform s a v hcore, busRead_of_server hserver rfl, platformRead, hwindow]
  exact Memory.read_write_self _ _ _ hcells

/-- Plain memory reads the byte back. -/
theorem busRead_busWrite_plainRam {s : State} {a : Word} (v : Byte) (ha : s.plainRam a = true) (hw : s.storageWf = true) :
    busRead (busWrite s a v) a = v := by
  obtain ⟨hmem, hplatform⟩ := (Bool.and_eq_true _ _).mp hw
  rcases plainRam_cases ha with h | h | ⟨first, last, cells, h⟩
  · exact busRead_busWrite_coreRam v h hmem
  · exact busRead_busWrite_workRam v h h hmem rfl
  · exact busRead_busWrite_memory v h hplatform

theorem workRamCell_of_mirrors {a b : Word} (h : mirrors a b = true) : workRamCell b = workRamCell a := by
  rw [mirrors, Bool.and_eq_true, beq_iff_eq] at h
  exact h.2.symm

/-! ## The delivery in order -/

/-- Setting a bit sets that one. -/
theorem withBit_true_getLsbD (f : Byte) (k : Fin 5) {i : Nat} (hi : i < 8) :
    (withBit f k.val true).getLsbD i = true ↔ f.getLsbD i = true ∨ k.val = i := by
  have hone : ∀ k : Fin 5, ∀ i < 8, (1#8 <<< k.val).getLsbD i = true ↔ k.val = i := by decide
  rw [withBit, if_pos rfl, BitVec.getLsbD_or, Bool.or_eq_true, hone k i hi]

/-- Requesting a list of interrupts sets their bits of IF (60_exceptions.md R423). -/
theorem requestAll_getLsbD (l : List (Fin 5)) (s : State) {i : Nat} (hi : i < 8) :
    (requestAll l s).cpu.ifReg.getLsbD i = true ↔ s.cpu.ifReg.getLsbD i = true ∨ ∃ k ∈ l, k.val = i := by
  induction l generalizing s with
  | nil => simp [requestAll]
  | cons k l ih =>
    show (requestAll l (requestInterrupt k.val s)).cpu.ifReg.getLsbD i = true ↔ _
    rw [ih, requestInterrupt_spec, withBit_true_getLsbD _ k hi]
    simp only [List.exists_mem_cons_iff, or_assoc]

/-- The head of the list gets the write, and then the components after it. -/
theorem platformWrite_attachedBefore (a : Word) (v : Byte) {s t : State} {c c' : PlatformComponent}
    {rest : List PlatformComponent} (h : s.platform = c :: rest) (hc : PlatformComponent.write a v s c = (c', t)) :
    platformWrite a v s = attachedBefore c' (platformWrite a v { t with platform := rest }) := by
  rw [platformWrite_cons a v s c rest h, hc]
  rfl

/-- Each kind of component in attachment order has its effect and leaves the write to the components after it. -/
theorem deliveredInOrder (s : State) (a : Word) (v : Byte) : DeliveredInOrder s a v := by
  refine fun rest => ⟨platformWrite_nil a v s, fun h => platformWrite_attachedBefore a v h rfl,
    fun h => platformWrite_attachedBefore a v h (componentWrite_workRam_eq a v s), fun first last writable cells h => ?_,
    fun number own h => ⟨_, fun i hi => requestAll_getLsbD _ s hi,
      platformWrite_attachedBefore a v h (componentWrite_external a v s number own)⟩⟩
  rw [platformWrite_attachedBefore a v h rfl]
  simp only [inWindow, Bool.and_eq_true, decide_eq_true_eq]

/-- Settles O51: the frame and the read-back through what serves each address, the regions through the laws of the bus. -/
theorem busWriteStores : Obligations.BusWriteStores := fun s a v =>
  ⟨fun _ h => busRead_busWrite_untouched v h, busRead_busWrite_plainRam v,
    fun ha hw _ hb hm => busRead_busWrite_workRam v ha hb hw (workRamCell_of_mirrors hm),
    fun h => busWrite_coreRam s a v (coreRam_of_coreStorage h), busWrite_if s v, busWrite_ie s v,
    fun h => busWrite_platform s a v (coreDecodes_of_platformAddress h), platformWrite_kept a v s,
    fun hp h => busWrite_dropped s a v hp h, deliveredInOrder s a v⟩

end Sys2Proof.Machine
end

section
/-! SUPPORT. The cartridge image at the start of a run, and that no step changes it, a read-only memory or the attached list
(20_memory.md R70, R83, R90; 10_state.md R59). -/

namespace Sys2Proof.Machine

/-! ## The image at the start -/

/-- In the cartridge's window the storage keeps the byte at the address itself. -/
theorem storageCell_rom {a : Word} (h : a.toNat < 0x8000) : storageCell a = some a.toNat := by
  unfold storageCell
  rw [workRamCell_none a (by omega)]
  exact if_pos ((isStorage_iff _).2 (by omega))

/-- Placing an image in the cartridge's window stores its bytes from the address on, and no other. -/
theorem read_placeBytes_rom (image : List Byte) (a : Word) (s : State) (hlen : a.toNat + image.length ≤ 0x8000)
    (hw : s.mem.wf = true) (n : Nat) :
    (placeBytes a image s).mem.read n = if a.toNat ≤ n then image[n - a.toNat]?.getD (s.mem.read n) else s.mem.read n := by
  induction image generalizing a s with
  | nil => simp [placeBytes]
  | cons v rest ih =>
    rw [List.length_cons] at hlen
    have hnext : (a + 1#16).toNat = a.toNat + 1 := by bv_omega
    simp only [placeBytes, storageCell_rom (show a.toNat < 0x8000 by omega)]
    rw [ih _ _ (by omega) (Memory.wf_write _ _ _ hw), hnext, Memory.read_write _ 0 _ _ _ hw]
    rcases Nat.lt_trichotomy n a.toNat with hlt | rfl | hgt
    · rw [if_neg (by omega), if_neg (by omega), if_neg (by omega)]
    · simp
    · obtain ⟨k, rfl⟩ := Nat.exists_eq_add_of_lt hgt
      rw [if_pos (by omega), if_neg (by omega), if_pos (by omega), show a.toNat + k + 1 - a.toNat = k + 1 by omega,
        show a.toNat + k + 1 - (a.toNat + 1) = k by omega, List.getElem?_cons_succ]

/-- Both start states have nothing stored. -/
theorem LaunchState.state_mem (launch : LaunchState) : launch.state.mem = [] := by
  cases launch <;> rfl

/-- A run starts with the image given; past its end nothing is stored (log 3). -/
theorem start_mem_read (launch : LaunchState) (platform : List PlatformComponent) (events : List (Nat × Fin 5))
    (image : List Byte) {n : Nat} (hn : n ≤ 0x7FFF) :
    (State.start launch platform events image).mem.read n = image[n]?.getD 0#8 := by
  have hlen : (0#16 : Word).toNat + (image.take 0x8000).length ≤ 0x8000 := by
    rw [List.length_take]
    exact (Nat.zero_add _).trans_le (Nat.min_le_left _ _)
  show (placeBytes 0#16 (image.take 0x8000) launch.state).mem.read n = _
  rw [read_placeBytes_rom _ _ _ hlen (by rw [LaunchState.state_mem]; rfl), LaunchState.state_mem,
    if_pos (show (0#16 : Word).toNat ≤ n from Nat.zero_le n)]
  show (image.take 0x8000)[n]?.getD 0#8 = _
  rw [List.getElem?_take_of_lt (by omega)]

/-! ## What keeps it -/

/-- The attached list is the same but for what its components store, and no read-only byte changed. -/
structure RomKept (s t : State) : Prop where
  kinds : t.platform.map PlatformComponent.kind = s.platform.map PlatformComponent.kind
  readOnly : ∀ (first last : Nat) (cells : Memory),
    .memory first last false cells ∈ s.platform → .memory first last false cells ∈ t.platform
  image : ∀ n ≤ 0x7FFF, t.mem.read n = s.mem.read n

namespace RomKept

variable {s t u : State}

theorem of_eq (hm : t.mem = s.mem) (hp : t.platform = s.platform) : RomKept s t where
  kinds := by rw [hp]
  readOnly _ _ _ h := hp ▸ h
  image n _ := by rw [hm]

theorem refl : RomKept s s := of_eq rfl rfl

theorem trans (h : RomKept s t) (h' : RomKept t u) : RomKept s u where
  kinds := h'.kinds.trans h.kinds
  readOnly _ _ _ hmem := h'.readOnly _ _ _ (h.readOnly _ _ _ hmem)
  image n hn := (h'.image n hn).trans (h.image n hn)

/-- A byte stored above the cartridge's window. -/
theorem of_write {k : Nat} {v : Byte} (hm : t.mem = s.mem.write k v) (hk : 0x7FFF < k) (hp : t.platform = s.platform) :
    RomKept s t where
  kinds := by rw [hp]
  readOnly _ _ _ h := hp ▸ h
  image n hn := by rw [hm, Memory.read_write_ne _ _ _ _ (by omega)]

/-- The platform's part of a write: a read-only memory is left as it is, and the work RAM lies above the image. -/
theorem platformWrite (a : Word) (v : Byte) : RomKept s (platformWrite a v s) where
  kinds := platformWrite_kinds a v s
  readOnly _ _ _ h := by
    rw [platformWrite_platform]
    exact List.mem_map.2 ⟨_, h, rfl⟩
  image n hn := platformWrite_read_ne a v s (workRamCell_ne (by omega))

theorem busWrite (a : Word) (v : Byte) : RomKept s (busWrite s a v) := by
  obtain ⟨u, hu⟩ := busWrite_coreStore s a v
  have hcore : RomKept s u := by
    rcases hu.mem with hm | ⟨ha, hm⟩
    · exact of_eq hm hu.platform
    · exact of_write hm (by rw [coreRam_iff] at ha; omega) hu.platform
  rw [hu.delivers]
  exact hcore.trans (platformWrite a v)

/-! ### The devices -/

theorem deliverHostEvents : RomKept s (deliverHostEvents s) := by
  rw [deliverHostEvents_spec]
  exact of_eq rfl rfl

theorem timerTick : RomKept s (timerTick s) := of_eq (timerChange_rest _ s).2.1 (timerChange_platform _ s)

theorem lcdPowerTest : RomKept s (lcdPowerTest s) := by
  unfold Machine.lcdPowerTest
  split <;> exact of_eq rfl rfl

/-- The DMA engine stores in OAM. -/
theorem dmaStep : RomKept s (dmaStep s) := by
  rcases dmaStep_spec s with ⟨-, e⟩ | ⟨-, e⟩ <;> rw [e]
  · exact of_write rfl (by omega) rfl
  · exact refl

theorem lcdSequence : RomKept s (lcdSequence s) := by
  unfold Machine.lcdSequence
  split
  · obtain ⟨u, wait, hu, -, e⟩ := lcdStep_writes s
    have hwrites : RomKept s u := of_eq (by rw [hu.frame]) (by rw [hu.frame])
    rw [e]
    exact hwrites.trans (of_eq rfl rfl)
  · exact refl

theorem deviceTicks : RomKept s (deviceTicks s) :=
  deliverHostEvents.trans <| timerTick.trans <| lcdPowerTest.trans <| dmaStep.trans lcdSequence

/-! ### The CPU -/

theorem cpuWrites (w : CpuWrites s t) : RomKept s t := by
  induction w with
  | refl => exact refl
  | setReg r v _ ih => exact ih.trans (of_eq (State.setReg_mem _ r v) (State.setReg_platform _ r v))
  | setF _ _ _ ih | setSp _ _ ih | setIme _ _ ih | setIf _ _ ih => exact ih.trans (of_eq rfl rfl)
  | busWrite a v _ ih => exact ih.trans (busWrite a v)

theorem cpuAction (act : CpuAction s t) : RomKept s t := by
  cases act with
  | jump target cost _ w => exact (cpuWrites w).trans (of_eq rfl rfl)
  | halt target => exact of_eq rfl rfl
  | fatal kind => exact of_eq rfl rfl

theorem wakeTest : RomKept s (wakeTest s) := by
  rcases wakeTest_spec s with ⟨-, -, e⟩ | ⟨-, e⟩ <;> rw [e] <;> exact of_eq rfl rfl

theorem advanceNow : RomKept s (advanceNow s) := by
  rcases advanceNow_spec s with ⟨-, e⟩ | ⟨-, e⟩ <;> rw [e] <;> exact of_eq rfl rfl

theorem onNext_cpuTick (h : onNext Machine.advanceNow (cpuTick s) = .next t) : RomKept s t := by
  rcases cpuTick_cases s with ⟨-, e⟩ | ⟨-, u, e, act⟩ <;> rw [e] at h <;> cases h
  · exact wakeTest.trans advanceNow
  · exact (wakeTest.trans (cpuAction act)).trans advanceNow

theorem step (h : step s = .next t) : RomKept s t := by
  unfold Machine.step at h
  split at h
  · cases h
  · exact deviceTicks.trans (onNext_cpuTick h)

end RomKept

/-! ## The cartridge's reads -/

/-- Which component serves an address is fixed by the kinds of the attached list. -/
theorem server_kind (s : State) (a : Word) :
    (s.server a).map PlatformComponent.kind =
      if coreDecodes a then none else (s.platform.map PlatformComponent.kind).find? (PlatformComponent.mayAnswer a) := by
  have hkind : PlatformComponent.mayAnswer a ∘ PlatformComponent.kind = PlatformComponent.mayAnswer a :=
    funext fun c => by cases c <;> rfl
  unfold State.server
  split
  · rfl
  · rw [List.find?_map, hkind]

/-- Where the cartridge serves an address, it does so in a state with the same kinds attached. -/
theorem server_cartridge_of_kinds {s t : State} {a : Word}
    (hk : t.platform.map PlatformComponent.kind = s.platform.map PlatformComponent.kind)
    (h : s.server a = some .cartridge) : t.server a = some .cartridge := by
  have e : (t.server a).map PlatformComponent.kind = some .cartridge := by
    rw [server_kind, hk, ← server_kind, h]
    rfl
  obtain ⟨c, hc, hkind⟩ := Option.map_eq_some_iff.1 e
  cases c with
  | cartridge => exact hc
  | workRam | memory | external => cases hkind

/-- Where the cartridge serves an address a bus read gives the image's byte. -/
theorem busRead_of_server_cartridge {s : State} {a : Word} (h : s.server a = some .cartridge) :
    busRead s a = s.mem.read a.toNat := by
  have hwindow : inWindow 0x0000 0x7FFF a = true := (server_some h).2.2
  rw [busRead_of_server h rfl, platformRead, hwindow]
  rfl

/-- Settles O48: the start by the bytes placed, each step by what each of its operations stores. -/
theorem romNeverChanges : Obligations.RomNeverChanges := by
  refine ⟨fun launch platform events image n hn => start_mem_read launch platform events image hn, fun s t hstep => ?_⟩
  have h := RomKept.step hstep
  refine ⟨h.kinds, h.readOnly, fun a ha => ⟨h.image _ ha, fun hs => ⟨busRead_of_server_cartridge hs, ?_⟩⟩⟩
  rw [busRead_of_server_cartridge hs, busRead_of_server_cartridge (server_cartridge_of_kinds h.kinds hs), h.image _ ha]

end Sys2Proof.Machine
end

section
/-! SUPPORT. The encoder and the decoder against each other (30_encoding.md R110 to R129): the decoder on what the encoder
writes, one instruction after the other, and the encoder on what the decoder reads, one table entry after the other. -/

namespace Sys2Proof

open Sys2Proof.Machine

/-! ## Lengths -/

/-- Every instruction's encoding has the length of its descriptor. -/
theorem encode_length (i : Instr) : (encode i).length = i.length := by
  cases i <;> rfl

theorem Instr.length_bounds (i : Instr) : 1 ≤ i.length ∧ i.length ≤ 3 := by
  unfold Instr.length Instr.descriptor
  split <;> decide

theorem decodePrefixed_length (b : Byte) : (decodePrefixed b).length = 2 := by
  unfold decodePrefixed shiftRegInstr shiftHlInstr
  split <;> (try split) <;> rfl

theorem decodeQuarter0_length (y z : Fin 8) (n1 n2 m1 m2 : Byte) :
    (decodeQuarter0 y z n1 n2).length = (decodeQuarter0 y z m1 m2).length := by
  unfold decodeQuarter0
  split <;> split <;> rfl

theorem decodeQuarter3_length (y z : Fin 8) (n1 n2 m1 m2 : Byte) :
    (decodeQuarter3 y z n1 n2).length = (decodeQuarter3 y z m1 m2).length := by
  unfold decodeQuarter3 aluImmInstr
  split <;> (try split) <;> rfl

/-- The length does not depend on the bytes after the first (30_encoding.md R114). -/
theorem decodeBytes_length (b n1 n2 : Byte) : (decodeBytes b n1 n2).length = lengthOfFirst b := by
  unfold lengthOfFirst decodeBytes
  split
  · rw [decodePrefixed_length, decodePrefixed_length]
  · unfold decodeDirect
    split
    · exact decodeQuarter0_length _ _ _ _ _ _
    · rfl
    · rfl
    · exact decodeQuarter3_length _ _ _ _ _ _

/-- Settles O37: the length by the decoder's tables, its bounds and the encoding's length by the descriptors. -/
theorem lengthFromFirstByte : Obligations.LengthFromFirstByte := by
  refine ⟨fun b0 b1 b2 n1 n2 => ?_, fun i _ => encode_length i⟩
  obtain ⟨hpos, hle⟩ := (decodeBytes b0 b1 b2).length_bounds
  refine ⟨?_, hpos, hle, ?_⟩
  · rw [decodeBytes_length, decodeBytes_length]
  · rintro rfl
    exact decodePrefixed_length b1

/-! ## The instruction that a byte list begins -/

/-- The instruction that a byte list begins, bytes past its end read as 0 as in `decode`. -/
def firstInstr : List Byte → Instr
  | [] => decodeBytes 0#8 0#8 0#8
  | b :: bs => decodeBytes b (bs.getD 0 0#8) (bs.getD 1 0#8)

theorem decode_cons (b : Byte) (bs : List Byte) :
    decode (b :: bs) =
      if bs.length + 1 < lengthOfFirst b then .error (.truncated b)
      else .ok (firstInstr (b :: bs), bs.drop (lengthOfFirst b - 1)) := rfl

/-- A list long enough for the instruction that it begins decodes to it and to what follows. -/
theorem decode_of_firstInstr {bs : List Byte} {i : Instr} (hi : firstInstr bs = i) (hlen : i.length ≤ bs.length) :
    decode bs = .ok (i, bs.drop i.length) := by
  obtain ⟨hpos, -⟩ := i.length_bounds
  cases bs with
  | nil => exact absurd hlen (by rw [List.length_nil]; omega)
  | cons b bs =>
    have hfirst : lengthOfFirst b = i.length := by rw [← hi, firstInstr, decodeBytes_length]
    obtain ⟨k, hk⟩ := Nat.exists_eq_add_of_le' hpos
    rw [List.length_cons] at hlen
    rw [decode_cons, if_neg (by omega), hi, hfirst, hk, List.drop_succ_cons, Nat.add_sub_cancel]

/-- What a list decodes to is the instruction that it begins. -/
theorem firstInstr_of_decode {bs rest : List Byte} {i : Instr} (h : decode bs = .ok (i, rest)) : firstInstr bs = i := by
  cases bs with
  | nil => cases h
  | cons b bs =>
    rw [decode_cons] at h
    split at h
    · cases h
    · exact congrArg Prod.fst (Except.ok.inj h)

/-! ## Decoding what the encoder writes -/

theorem firstInstr_formPfx (op : Nat) (bs : List Byte) :
    firstInstr (formPfx op ++ bs) = decodePrefixed (BitVec.ofNat 8 op) := by
  simp [firstInstr, formPfx, decodeBytes]

/-- The encoding of a whole instruction begins the instruction, whatever follows it: each operand field at each of its values,
an immediate as it stands. -/
theorem firstInstr_encode (i : Instr) (hwf : i.wellFormed = true) (bs : List Byte) : firstInstr (encode i ++ bs) = i := by
  cases i with
  | ldRR rd rs => cases rd <;> cases rs <;> rfl
  | ldRHl r | ldHlR r | addAR r | adcAR r | subAR r | sbcAR r | andAR r | xorAR r | orAR r | cpAR r | incR r | decR r
  | ldRN8 r => cases r <;> rfl
  | addHlRr p | incRr p | decRr p | pushRr p | popRr p => cases p <;> rfl
  | jrCcE8 cc | retCc cc => cases cc <;> rfl
  | rstT t => fin_cases t <;> rfl
  | ldAN16 n | ldN16A n | ldN16Sp n | jpN16 n | callN16 n => exact congrArg _ (joinBytes_hi_lo n)
  | ldRrN16 p n => cases p <;> exact congrArg _ (joinBytes_hi_lo n)
  | jpCcN16 cc n | callCcN16 cc n => cases cc <;> exact congrArg _ (joinBytes_hi_lo n)
  | rlcR r | rrcR r | rlR r | rrR r | slaR r | sraR r | swapR r | srlR r =>
    exact (firstInstr_formPfx _ bs).trans (by cases r <;> rfl)
  | rlcHl | rrcHl | rlHl | rrHl | slaHl | sraHl | swapHl | srlHl => exact firstInstr_formPfx _ bs
  | bitBR b r | resBR b r | setBR b r => exact (firstInstr_formPfx _ bs).trans (by fin_cases b <;> cases r <;> rfl)
  | bitBHl b | resBHl b | setBHl b => exact (firstInstr_formPfx _ bs).trans (by fin_cases b <;> rfl)
  | pfx => cases hwf
  | _ => rfl

/-- Settles O35: the encoding begins its instruction and has its length. -/
theorem decodeOfEncode : Obligations.DecodeOfEncode := fun i rest hwf => by
  rw [decode_of_firstInstr (firstInstr_encode i hwf rest) (by simp [encode_length]), List.drop_left' (encode_length i)]

/-! ## Encoding what the decoder reads -/

/-- The opcode byte `xxyyyzzz` (30_encoding.md R115). -/
def opcode (x : Fin 4) (y z : Fin 8) : Byte := BitVec.ofNat 8 (64 * x.val + 8 * y.val + z.val)

theorem opcode_fields (b : Byte) : opcode (fieldX b) (fieldY b) (fieldZ b) = b := by
  revert b
  decide +kernel

/-- The opcode byte of an `(HL)` form, in the encoder's order of summands. -/
theorem opcode_hl (x : Fin 4) (y : Fin 8) : opcode x y 6 = BitVec.ofNat 8 (64 * x.val + 6 + 8 * y.val) :=
  congrArg (BitVec.ofNat 8) (Nat.add_right_comm _ _ _)

/-- The r8 field of a register (30_encoding.md R116). -/
def Reg8.field (r : Reg8) : Fin 8 := ⟨r.code, by cases r <;> decide⟩

@[simp] theorem reg8OfField_field (r : Reg8) : reg8OfField r.field = some r := by
  cases r <;> rfl

/-- A field r8 is a register's or that of `(HL)`. -/
theorem field_cases (f : Fin 8) : (∃ r : Reg8, f = r.field) ∨ f = 6 :=
  match f with
  | 0 => .inl ⟨.b, rfl⟩
  | 1 => .inl ⟨.c, rfl⟩
  | 2 => .inl ⟨.d, rfl⟩
  | 3 => .inl ⟨.e, rfl⟩
  | 4 => .inl ⟨.h, rfl⟩
  | 5 => .inl ⟨.l, rfl⟩
  | 6 => .inr rfl
  | 7 => .inl ⟨.a, rfl⟩

/-- `i` is a whole instruction, and of the three bytes its encoding is the first ones; STOP's opcode apart, whose second byte
has no meaning (47_system.md R302). -/
structure IsEntry (b n1 n2 : Byte) (i : Instr) : Prop where
  wellFormed : i.wellFormed = true
  encode_isPrefix : b ≠ 0x10#8 → encode i <+: [b, n1, n2]

namespace IsEntry

variable {b n1 n2 : Byte} {i : Instr}

/-- An entry of one byte. -/
theorem op (hwf : i.wellFormed = true) (h : encode i = [b]) : IsEntry b n1 n2 i :=
  ⟨hwf, fun _ => ⟨[n1, n2], by rw [h]; rfl⟩⟩

/-- An entry of two bytes. -/
theorem n8 (hwf : i.wellFormed = true) (h : encode i = [b, n1]) : IsEntry b n1 n2 i :=
  ⟨hwf, fun _ => ⟨[n2], by rw [h]; rfl⟩⟩

/-- An entry with a 16-bit operand, low byte first (30_encoding.md R123). -/
theorem n16 (hwf : i.wellFormed = true) (h : encode i = [b, lo (joinBytes n2 n1), hi (joinBytes n2 n1)]) :
    IsEntry b n1 n2 i :=
  ⟨hwf, fun _ => ⟨[], by rw [h, lo_joinBytes, hi_joinBytes]; rfl⟩⟩

end IsEntry

theorem decodeQuarter0_isEntry (y z : Fin 8) (n1 n2 : Byte) :
    IsEntry (opcode 0 y z) n1 n2 (decodeQuarter0 y z n1 n2) :=
  match z with
  | 0 =>
    match y with
    | 0 => .op rfl rfl
    | 1 => .n16 rfl rfl
    | 2 => ⟨rfl, fun h => absurd rfl h⟩
    | 3 | 4 | 5 | 6 | 7 => .n8 rfl rfl
  | 1 =>
    match y with
    | 0 | 2 | 4 | 6 => .n16 rfl rfl
    | 1 | 3 | 5 | 7 => .op rfl rfl
  | 2 | 3 | 4 | 5 | 7 => by fin_cases y <;> exact .op rfl rfl
  | 6 => by fin_cases y <;> exact .n8 rfl rfl

theorem decodeQuarter1_isEntry (y z : Fin 8) (n1 n2 : Byte) : IsEntry (opcode 1 y z) n1 n2 (decodeQuarter1 y z) := by
  unfold decodeQuarter1
  obtain ⟨rd, rfl⟩ | rfl := field_cases y <;> obtain ⟨rs, rfl⟩ | rfl := field_cases z
  · rw [reg8OfField_field, reg8OfField_field]
    exact .op rfl rfl
  · rw [reg8OfField_field]
    exact .op rfl (by rw [opcode_hl]; rfl)
  · rw [reg8OfField_field]
    exact .op rfl rfl
  · exact .op rfl rfl

theorem decodeQuarter2_isEntry (y z : Fin 8) (n1 n2 : Byte) : IsEntry (opcode 2 y z) n1 n2 (decodeQuarter2 y z) := by
  unfold decodeQuarter2
  obtain ⟨rs, rfl⟩ | rfl := field_cases z
  · rw [reg8OfField_field]
    fin_cases y <;> exact .op rfl rfl
  · fin_cases y <;> exact .op rfl rfl

theorem decodeQuarter3_isEntry (y z : Fin 8) (n1 n2 : Byte) (h : opcode 3 y z ≠ Config.prefixByte) :
    IsEntry (opcode 3 y z) n1 n2 (decodeQuarter3 y z n1 n2) :=
  match z with
  | 0 =>
    match y with
    | 0 | 1 | 2 | 3 => .op rfl rfl
    | 4 | 5 | 6 | 7 => .n8 rfl rfl
  | 1 => by fin_cases y <;> exact .op rfl rfl
  | 2 =>
    match y with
    | 0 | 1 | 2 | 3 | 5 | 7 => .n16 rfl rfl
    | 4 | 6 => .op rfl rfl
  | 3 =>
    match y with
    | 0 => .n16 rfl rfl
    | 1 => absurd rfl h
    | 2 | 3 | 4 | 5 | 6 | 7 => .op rfl rfl
  | 4 =>
    match y with
    | 0 | 1 | 2 | 3 => .n16 rfl rfl
    | 4 | 5 | 6 | 7 => .op rfl rfl
  | 5 =>
    match y with
    | 1 => .n16 rfl rfl
    | 0 | 2 | 3 | 4 | 5 | 6 | 7 => .op rfl rfl
  | 6 => by fin_cases y <;> exact .n8 rfl rfl
  | 7 => by fin_cases y <;> exact .op rfl rfl

theorem decodePrefixed_isEntry (b n2 : Byte) : IsEntry Config.prefixByte b n2 (decodePrefixed b) := by
  have hb := opcode_fields b
  unfold decodePrefixed
  generalize fieldX b = x, fieldY b = y, fieldZ b = z at hb ⊢
  subst hb
  obtain ⟨rs, rfl⟩ | rfl := field_cases z
  · rw [reg8OfField_field]
    match x with
    | 0 => fin_cases y <;> exact .n8 rfl rfl
    | 1 | 2 | 3 => exact .n8 rfl rfl
  · rw [opcode_hl]
    match x with
    | 0 => fin_cases y <;> exact .n8 rfl rfl
    | 1 | 2 | 3 => exact .n8 rfl rfl

/-- Every byte sequence is an entry of the tables: the opcode's fields pick the quarter, 0xCB the prefixed table
(30_encoding.md R111, R125, R126). -/
theorem decodeBytes_isEntry (b n1 n2 : Byte) : IsEntry b n1 n2 (decodeBytes b n1 n2) := by
  unfold decodeBytes
  split
  case isTrue hb => exact hb ▸ decodePrefixed_isEntry n1 n2
  case isFalse hb =>
    have hfields := opcode_fields b
    unfold decodeDirect
    generalize fieldX b = x, fieldY b = y, fieldZ b = z at hfields ⊢
    subst hfields
    match x with
    | 0 => exact decodeQuarter0_isEntry y z n1 n2
    | 1 => exact decodeQuarter1_isEntry y z n1 n2
    | 2 => exact decodeQuarter2_isEntry y z n1 n2
    | 3 => exact decodeQuarter3_isEntry y z n1 n2 hb

/-- Settles O36: the encoding of a table entry begins the three bytes, and is as long as the instruction. -/
theorem encodeOfDecode : Obligations.EncodeOfDecode := fun b0 b1 b2 => by
  obtain ⟨hwf, hpre⟩ := decodeBytes_isEntry b0 b1 b2
  refine ⟨hwf, fun hb => ?_⟩
  rw [← encode_length]
  exact List.prefix_iff_eq_take.1 (hpre hb)

/-- Settles O34: each word through the decoder's tables. -/
theorem wordsDecode : Obligations.WordsDecode :=
  ⟨rfl, rfl, rfl, rfl, rfl, rfl, rfl, rfl, rfl, rfl, rfl, rfl, rfl⟩

end Sys2Proof
end

section
/-! SUPPORT. A step at an instruction boundary at which no interrupt is serviced (30_encoding.md R111, R113;
60_exceptions.md R429; 70_reset_and_hazards.md R470). -/

namespace Sys2Proof.Machine

open Sys2Proof.Spec

/-! ## The cycle through the devices' ticks -/

theorem deliverHostEvents_globals (s : State) : SameGlobals s (deliverHostEvents s) := by
  rw [deliverHostEvents_spec]
  exact .rfl' s

theorem lcdPowerTest_globals (s : State) : SameGlobals s (lcdPowerTest s) := by
  unfold lcdPowerTest
  split <;> exact .rfl' s

theorem dmaStep_globals (s : State) : SameGlobals s (dmaStep s) := by
  rcases dmaStep_spec s with ⟨-, e⟩ | ⟨-, e⟩ <;> rw [e] <;> exact .rfl' s

theorem lcdSequence_globals (s : State) : SameGlobals s (lcdSequence s) := by
  unfold lcdSequence
  split
  · obtain ⟨u, wait, hu, -, e⟩ := lcdStep_writes s
    have hwrites : SameGlobals s u := by rw [hu.frame]; exact .rfl' s
    rw [e]
    exact hwrites.trans (.rfl' u)
  · exact .rfl' s

/-- The devices' ticks change neither the cycle nor the Fatal nor the schedule of host events. -/
theorem deviceTicks_globals (s : State) : SameGlobals s (deviceTicks s) := by
  obtain ⟨-, -, htimer⟩ := timerChange_rest
    { (deliverHostEvents s).timer with counter := (deliverHostEvents s).timer.counter + Config.timerInc } (deliverHostEvents s)
  exact (deliverHostEvents_globals s).trans <| htimer.trans <| (lcdPowerTest_globals _).trans <|
    (dmaStep_globals _).trans (lcdSequence_globals _)

/-! ## The CPU at its watermark -/

theorem step_of_running {s : State} (h : s.Running) : step s = onNext advanceNow (cpuTick (deviceTicks s)) := by
  unfold step
  rw [show s.fatal = none from h]
  rfl

theorem cpuTick_deviceTicks_of_due {s : State} (h : (atCpu s).cpu.next = some s.now) :
    cpuTick (deviceTicks s) = cpuActive (atCpu s) := by
  obtain ⟨-, hnow, -⟩ := deviceTicks_globals s
  exact if_pos (hnow ▸ h)

theorem serviceable_none {s : State} (h : s.cpu.ime = false ∨ s.cpu.ie &&& s.cpu.ifReg = 0#8) : serviceable s = none := by
  unfold serviceable
  rcases h with h | h
  · rw [h]
    rfl
  · rw [(lowestSetBit_none (pendingBits s)).2 h, ite_self]

theorem cpuActive_of_no_service {s : State} (h : serviceable s = none) : cpuActive s = exec (fetch s) s := by
  unfold cpuActive
  rw [h]

/-- Settles O38: the tick is due, services nothing, and fetches what the bytes at PC begin. -/
theorem stepRunsDecodedInstruction : Obligations.StepRunsDecodedInstruction := by
  intro s i rest hrun hdue hservice hdecode _
  have hfetch : fetch (atCpu s) = i := firstInstr_of_decode hdecode
  have hstep : step s = onNext advanceNow (exec i (atCpu s)) := by
    rw [step_of_running hrun, cpuTick_deviceTicks_of_due hdue, cpuActive_of_no_service (serviceable_none hservice), hfetch]
  rw [hstep]
  refine ⟨?_, ?_, ?_⟩ <;> intro r hr <;> rw [hr] <;> rfl

end Sys2Proof.Machine
end

section
/-! SUPPORT. An instruction that writes byte registers and F and then commits: its frame, and its flags (30_encoding.md R112,
R113; 10_state.md R27). -/

namespace Sys2Proof.Spec

open Sys2Proof.Machine

variable {s t u : State}

/-! ## Changes to the CPU's own registers -/

theorem Outside.trans (h : Outside s t) (h' : Outside t u) : Outside s u where
  ifReg := h'.ifReg.trans h.ifReg
  ie := h'.ie.trans h.ie
  timer := h'.timer.trans h.timer
  lcd := h'.lcd.trans h.lcd
  mem := h'.mem.trans h.mem
  platform := h'.platform.trans h.platform
  hostEvents := h'.hostEvents.trans h.hostEvents
  now := h'.now.trans h.now
  fatal := h'.fatal.trans h.fatal
  reads a := (h'.reads a).trans (h.reads a)

theorem Outside.of_cpu {cpu : Cpu} (hif : cpu.ifReg = s.cpu.ifReg) (hie : cpu.ie = s.cpu.ie) :
    Outside s { s with cpu := cpu } where
  ifReg := hif
  ie := hie
  timer := rfl
  lcd := rfl
  mem := rfl
  platform := rfl
  hostEvents := rfl
  now := rfl
  fatal := rfl
  reads := busRead_congr s { s with cpu := cpu } rfl rfl rfl hif hie rfl rfl

theorem outside_setReg (s : State) (r : Reg8) (v : Byte) : Outside s (s.setReg r v) := by
  cases r <;> exact .of_cpu rfl rfl

theorem outside_setFlags (s : State) (z n h c : Option Bool) : Outside s (s.setFlags z n h c) := .of_cpu rfl rfl

theorem outside_commit (s : State) (len cost : Nat) : Outside s (commit len cost s) := .of_cpu rfl rfl

theorem regsKept_setReg (s : State) (r : Reg8) (v : Byte) : RegsKept [r] s (s.setReg r v) :=
  fun q hq => s.reg_setReg_ne r q v (List.ne_of_not_mem_cons hq)

/-! ## The commit -/

/-- A commit after changes to registers of `dest` and F alone. -/
theorem registerOnly_of_commit {i : Instr} {bytes : List Byte} {cost : Nat} {dest : List Reg8} (hencode : encode i = bytes)
    (hexec : exec i s = .next (commit bytes.length cost u)) (hout : Outside s u) (hregs : RegsKept dest s u)
    (hpc : u.cpu.pc = s.cpu.pc) (hsp : u.cpu.sp = s.cpu.sp) (hime : u.cpu.ime = s.cpu.ime) :
    RegisterOnly i bytes cost dest s (commit bytes.length cost u) :=
  ⟨⟨hencode, hexec, by rw [commit_pc, hpc], by rw [commit_next, hout.now]⟩, hout.trans (outside_commit u _ _),
    fun r hr => (commit_reg u _ _ r).trans (hregs r hr), hsp, hime⟩

/-- One register and the flags written, and then the commit. -/
theorem registerOnly_setReg_setFlags {i : Instr} {bytes : List Byte} {cost : Nat} {r : Reg8} {v : Byte}
    {z n h c : Option Bool} (hencode : encode i = bytes)
    (hexec : exec i s = .next (commit bytes.length cost ((s.setReg r v).setFlags z n h c))) :
    RegisterOnly i bytes cost [r] s (commit bytes.length cost ((s.setReg r v).setFlags z n h c)) :=
  registerOnly_of_commit hencode hexec ((outside_setReg s r v).trans (outside_setFlags _ z n h c))
    (fun q hq => (State.setFlags_reg _ z n h c q).trans (regsKept_setReg s r v q hq)) (by simp) (by simp) (by simp)

/-- The flags after a commit are those written, and the old ones where none was (10_state.md R27). -/
theorem flagsAre_commit_setFlags (s : State) (len cost : Nat) (z n h c : Option Bool) :
    FlagsAre (commit len cost (s.setFlags z n h c)) (z.getD s.fZ) (n.getD s.fN) (h.getD s.fH) (c.getD s.fC) :=
  ⟨Flags.toByte_z _, Flags.toByte_n _, Flags.toByte_h _, Flags.toByte_c _, Flags.toByte_low _⟩

end Sys2Proof.Spec
end

section
/-! SUPPORT. DAA: the two triggers and the fix in natural numbers (40_alu.md R145). -/

namespace Sys2Proof.Machine

open Sys2Proof.Spec

/-- Fix-low is triggered. -/
def bcdLow (v : Byte) (n h : Bool) : Bool := h || (!n && decide (v.toNat % 16 > 9))

/-- Fix-high is triggered. -/
def bcdHigh (v : Byte) (n c : Bool) : Bool := c || (!n && decide (v.toNat > 0x99))

/-- The fix that the two triggers give. -/
def bcdFix (low high : Bool) : Nat := (if high then 0x60 else 0) + (if low then 0x06 else 0)

theorem bcdLow_iff (v : Byte) (n h : Bool) : bcdLow v n h = true ↔ h = true ∨ (n = false ∧ v.toNat % 16 > 9) := by
  simp [bcdLow]

theorem bcdHigh_iff (v : Byte) (n c : Bool) : bcdHigh v n c = true ↔ c = true ∨ (n = false ∧ v.toNat > 0x99) := by
  simp [bcdHigh]

theorem bcdFix_le (low high : Bool) : bcdFix low high ≤ 0x66 := by
  revert low high
  decide

theorem bcdFix_cast (low high : Bool) :
    (bcdFix low high : Int) = (if high then 0x60 else 0) + (if low then 0x06 else 0) := by
  simp [bcdFix]

theorem aluBcdAdjust_value (v : Byte) (n h c : Bool) :
    (aluBcdAdjust v n h c).value =
      BitVec.ofInt 8 (if n then v.toNat - bcdFix (bcdLow v n h) (bcdHigh v n c)
        else v.toNat + bcdFix (bcdLow v n h) (bcdHigh v n c)) := by
  rw [bcdFix_cast]
  rfl

/-- The byte plus or minus the fix, modulo 256. -/
theorem aluBcdAdjust_value_toNat (v : Byte) (n h c : Bool) :
    (aluBcdAdjust v n h c).value.toNat =
      (if n then v.toNat + 256 - bcdFix (bcdLow v n h) (bcdHigh v n c)
        else v.toNat + bcdFix (bcdLow v n h) (bcdHigh v n c)) % 256 := by
  rw [aluBcdAdjust_value, BitVec.toNat_ofInt]
  have hfix := bcdFix_le (bcdLow v n h) (bcdHigh v n c)
  split <;> omega

/-- Settles O15: the frame of one register and the flags, and the adjusted byte in natural numbers. -/
theorem decimalAdjust : Obligations.DecimalAdjust := fun s =>
  ⟨_, bcdLow s.cpu.a s.fN s.fH, bcdHigh s.cpu.a s.fN s.fC, _, registerOnly_setReg_setFlags rfl rfl, bcdLow_iff _ _ _,
    bcdHigh_iff _ _ _, rfl, aluBcdAdjust_value_toNat s.cpu.a s.fN s.fH s.fC, flagsAre_commit_setFlags _ _ _ _ _ _ _⟩

end Sys2Proof.Machine
end

section
/-! SUPPORT. The ALU's sums and differences in natural numbers, and its rotates and swap bit by bit (40_alu.md R141, R142,
R152 to R154, R157). -/

namespace Sys2Proof.Machine

open Sys2Proof.Spec

/-! ## Sums and differences -/

theorem aluAdd_value_toNat (l r : Byte) (cin : Bool) :
    (aluAdd l r cin).value.toNat = (l.toNat + r.toNat + cin.toNat) % 256 := BitVec.toNat_ofNat _ _

theorem aluSub_value_toNat (l r : Byte) (bin : Bool) :
    (aluSub l r bin).value.toNat = (l.toNat + 512 - r.toNat - bin.toNat) % 256 := by
  have hr := r.isLt
  have hbin := bin.toNat_le
  simp only [aluSub, BitVec.toNat_ofInt]
  omega

theorem aluSub_carry (l r : Byte) (bin : Bool) : (aluSub l r bin).flags.c = decide (l.toNat < r.toNat + bin.toNat) := by
  simp only [aluSub, decide_eq_decide]
  omega

theorem aluSub_halfCarry (l r : Byte) (bin : Bool) :
    (aluSub l r bin).flags.h = decide (l.toNat % 16 < r.toNat % 16 + bin.toNat) := by
  simp only [aluSub, decide_eq_decide]
  omega

theorem aluSub_self (a : Byte) : aluSub a a false = ⟨0#8, ⟨true, true, false, false⟩⟩ := by
  simp [aluSub]

theorem toNat_not_bool (c : Bool) : (!c).toNat = 1 - c.toNat := by
  cases c <;> rfl

/-- The sum is the difference with the right byte and the carry complemented. -/
theorem aluAdd_value_eq_aluSub (a b : Byte) (c : Bool) : (aluAdd a b c).value = (aluSub a (~~~b) (!c)).value := by
  apply BitVec.eq_of_toNat_eq
  rw [aluAdd_value_toNat, aluSub_value_toNat, BitVec.toNat_not, toNat_not_bool]
  have hb := b.isLt
  have hc := c.toNat_le
  omega

/-- There is a carry when there is no borrow of the complement. -/
theorem aluAdd_carry_eq_aluSub (a b : Byte) (c : Bool) : (aluAdd a b c).flags.c = !(aluSub a (~~~b) (!c)).flags.c := by
  rw [aluSub_carry, BitVec.toNat_not, toNat_not_bool, ← decide_not]
  simp only [aluAdd, decide_eq_decide]
  have hb := b.isLt
  have hc := c.toNat_le
  omega

/-- So it is between the low nibbles. -/
theorem aluAdd_halfCarry_eq_aluSub (a b : Byte) (c : Bool) : (aluAdd a b c).flags.h = !(aluSub a (~~~b) (!c)).flags.h := by
  rw [aluSub_halfCarry, BitVec.toNat_not, toNat_not_bool, ← decide_not]
  simp only [aluAdd, decide_eq_decide]
  have hb := b.isLt
  have hc := c.toNat_le
  omega

/-! ## Rotates and swap -/

theorem withBit_getLsbD (v : Byte) (i : Nat) (x : Bool) {j : Nat} (hj : j < 8) :
    (withBit v i x).getLsbD j = if j = i then x else v.getLsbD j := by
  have hone : (1#8 <<< i).getLsbD j = decide (j = i) := by
    rw [← BitVec.twoPow_eq, BitVec.getLsbD_twoPow, ← Bool.decide_and, decide_eq_decide]
    omega
  cases x with
  | false =>
    rw [withBit, if_neg Bool.false_ne_true, BitVec.getLsbD_and, BitVec.getLsbD_not, hone]
    by_cases h : j = i <;> simp [hj, h]
  | true =>
    rw [withBit, if_pos rfl, BitVec.getLsbD_or, hone]
    by_cases h : j = i <;> simp [h]

@[simp] theorem withBit_getElem (v : Byte) (i : Nat) (x : Bool) {j : Nat} (hj : j < 8) :
    (withBit v i x)[j] = if j = i then x else v[j] := withBit_getLsbD v i x hj

/-- How far above a bit's place the bit that a rotate puts there comes from, around `n` bits. -/
def Dir.source {n : Nat} [NeZero n] : Dir → Fin n
  | .left => -1
  | .right => 1

theorem byte_ext {v w : Byte} (h : ∀ i : Fin 8, v.getLsbD i = w.getLsbD i) : v = w :=
  BitVec.eq_of_getLsbD_eq fun i hi => h ⟨i, hi⟩

/-- A rotate moves every bit by one place around eight (40_alu.md R152). -/
theorem aluRotate_getLsbD (dir : Dir) (v : Byte) (i : Fin 8) :
    (aluRotate dir v).value.getLsbD i = v.getLsbD (i + dir.source : Fin 8) := by
  cases dir <;> fin_cases i <;> simp [aluRotate, shiftOut, Dir.source, ← sub_eq_add_neg]

/-- A swap moves every bit by four places around eight (40_alu.md R154). -/
theorem aluSwap_getLsbD (v : Byte) (i : Fin 8) : (aluSwap v).value.getLsbD i = v.getLsbD (i + 4 : Fin 8) := by
  fin_cases i <;> simp [aluSwap, shiftOut]

theorem aluSwap_aluSwap (v : Byte) : (aluSwap (aluSwap v).value).value = v :=
  byte_ext fun i => by rw [aluSwap_getLsbD, aluSwap_getLsbD, add_assoc, show (4 + 4 : Fin 8) = 0 from rfl, add_zero]

theorem aluRotate_left_right (v : Byte) : (aluRotate .left (aluRotate .right v).value).value = v :=
  byte_ext fun i => by rw [aluRotate_getLsbD, aluRotate_getLsbD, Dir.source, Dir.source, neg_add_cancel_right]

theorem aluRotate_right_left (v : Byte) : (aluRotate .right (aluRotate .left v).value).value = v :=
  byte_ext fun i => by rw [aluRotate_getLsbD, aluRotate_getLsbD, Dir.source, Dir.source, add_neg_cancel_right]

/-- Bit `i` of the nine bits of the 9-bit rotate: the value's eight and the carry above them (40_alu.md R153). -/
def bitOfNine (x : Byte × Bool) (i : Fin 9) : Bool := if i = 8 then x.2 else x.1.getLsbD i

theorem bitOfNine_ext {x y : Byte × Bool} (h : ∀ i, bitOfNine x i = bitOfNine y i) : x = y := by
  refine Prod.ext (byte_ext fun i => ?_) (h 8)
  have hi := h i.castSucc
  have hne : i.castSucc ≠ 8 := i.castSucc_ne_last
  rwa [bitOfNine, bitOfNine, if_neg hne, if_neg hne] at hi

/-- A turn moves every bit by one place around nine. -/
theorem bitOfNine_turn (dir : Dir) (x : Byte × Bool) (i : Fin 9) :
    bitOfNine (turn dir x) i = bitOfNine x (i + dir.source) := by
  have hneg : (-1 : Fin 9) = 8 := rfl
  cases dir <;> fin_cases i <;> simp [bitOfNine, turn, aluRotateCarry, shiftOut, Dir.source, hneg]

theorem bitOfNine_iterate_turn (dir : Dir) (k : Nat) (x : Byte × Bool) (i : Fin 9) :
    bitOfNine ((turn dir)^[k] x) i = bitOfNine x (i + k • dir.source) := by
  induction k generalizing i with
  | zero => rw [zero_nsmul, add_zero, Function.iterate_zero_apply]
  | succ k ih => rw [Function.iterate_succ_apply', bitOfNine_turn, ih, succ_nsmul', add_assoc]

/-- Nine places around nine bits are none. -/
theorem iterate_turn_nine (dir : Dir) (x : Byte × Bool) : (turn dir)^[9] x = x := by
  have hnine : 9 • (dir.source : Fin 9) = 0 := by cases dir <;> rfl
  exact bitOfNine_ext fun i => by rw [bitOfNine_iterate_turn, hnine, add_zero]

/-- Settles O60: sums and differences in natural numbers, rotates and swaps as moves of the bits around their ring. -/
theorem aluLaws : Obligations.AluLaws :=
  ⟨fun a b => ⟨aluAdd_value_toNat a b false, rfl, aluSub_carry a b false, aluSub_self a⟩,
    fun a b c => ⟨aluAdd_value_eq_aluSub a b c, aluAdd_carry_eq_aluSub a b c, aluAdd_halfCarry_eq_aluSub a b c⟩,
    fun v c dir => ⟨aluRotate_left_right v, aluRotate_right_left v, iterate_turn_nine dir (v, c), aluSwap_aluSwap v⟩⟩

end Sys2Proof.Machine
end

section
/-! SUPPORT. Writes of the CPU's own registers beside a single one, and a commit after any changes (30_encoding.md R112, R113;
10_state.md R21). -/

namespace Sys2Proof.Spec

open Sys2Proof.Machine

variable {i : Instr} {bytes : List Byte} {cost : Nat} {s u : State}

theorem outside_setHl (s : State) (w : Word) : Outside s (s.setHl w) := .of_cpu rfl rfl

theorem regsKept_setHl (s : State) (w : Word) : RegsKept [.h, .l] s (s.setHl w) := fun r hr => by
  cases r with
  | h | l => simp at hr
  | a | b | c | d | e => rfl

theorem regsKept_commit (s : State) (len cost : Nat) (dest : List Reg8) : RegsKept dest s (commit len cost s) :=
  fun r _ => commit_reg s len cost r

/-- A commit after changes that leave PC and the cycle. -/
theorem runs_of_commit (hencode : encode i = bytes) (hexec : exec i s = .next (commit bytes.length cost u))
    (hpc : u.cpu.pc = s.cpu.pc) (hnow : u.now = s.now) : Runs i bytes cost s (commit bytes.length cost u) :=
  ⟨hencode, hexec, by rw [commit_pc, hpc], by rw [commit_next, hnow]⟩

/-- One register written, and then the commit. -/
theorem registerOnly_setReg {r : Reg8} {v : Byte} (hencode : encode i = bytes)
    (hexec : exec i s = .next (commit bytes.length cost (s.setReg r v))) :
    RegisterOnly i bytes cost [r] s (commit bytes.length cost (s.setReg r v)) :=
  registerOnly_of_commit hencode hexec (outside_setReg s r v) (regsKept_setReg s r v) (State.setReg_pc s r v)
    (State.setReg_sp s r v) (State.setReg_ime s r v)

end Sys2Proof.Spec
end

section
/-! SUPPORT. What a bus write leaves of the devices' hidden state, unit by unit (20_memory.md R74; 48_timer.md R327 to R331;
49_display.md R351 to R358, R364). -/

namespace Sys2Proof.Machine

/-- The hidden state of the devices is as before, but for what a store to `a` itself may change: the frame images, the
power-up cycle, the window counter, the Timer's counter, the display's watermark and the DMA engine. -/
structure HiddenKept (a : Word) (s t : State) : Prop where
  images : t.lcd.frameCur = s.lcd.frameCur ∧ t.lcd.frameNext = s.lcd.frameNext
  display : t.lcd.onCycle = s.lcd.onCycle ∧ t.lcd.winLine = s.lcd.winLine
  counter : 0xFF04#16 ≠ a → t.timer.counter = s.timer.counter
  lcdNext : 0xFF40#16 ≠ a → t.lcd.next = s.lcd.next
  dmaEngine : 0xFF46#16 ≠ a → t.lcd.dmaSrc = s.lcd.dmaSrc ∧ t.lcd.dmaIdx = s.lcd.dmaIdx

theorem timerChange_counter (r : Timer) (s : State) : (timerChange r s).timer.counter = r.counter := by
  rcases timerChange_spec r s with e | ⟨-, e⟩ | e <;> rw [e]

namespace HiddenKept

variable {a : Word} {s t u : State}

theorem trans (h : HiddenKept a s t) (h' : HiddenKept a t u) : HiddenKept a s u where
  images := ⟨h'.images.1.trans h.images.1, h'.images.2.trans h.images.2⟩
  display := ⟨h'.display.1.trans h.display.1, h'.display.2.trans h.display.2⟩
  counter ha := (h'.counter ha).trans (h.counter ha)
  lcdNext ha := (h'.lcdNext ha).trans (h.lcdNext ha)
  dmaEngine ha := ⟨(h'.dmaEngine ha).1.trans (h.dmaEngine ha).1, (h'.dmaEngine ha).2.trans (h.dmaEngine ha).2⟩

/-- With the display as before only the Timer's counter is in question. -/
theorem of_lcd_eq (hlcd : t.lcd = s.lcd) (hcounter : 0xFF04#16 ≠ a → t.timer.counter = s.timer.counter) :
    HiddenKept a s t := by
  refine ⟨?_, ?_, hcounter, ?_, ?_⟩ <;> simp [hlcd]

theorem timerWrite (s : State) (a : Word) (v : Byte) : HiddenKept a s (timerWrite s a v) := by
  obtain ⟨-, hlcd, -, -⟩ := timerWrite_spec s a v
  refine of_lcd_eq hlcd fun ha => ?_
  unfold Machine.timerWrite
  rw [if_neg ha.symm]
  split
  · rfl
  split
  · rfl
  split
  · rw [timerChange_counter]
  · rfl

/-! ### The display's registers -/

/-- The comparison changes STAT and IF only. -/
theorem lcdCompare (s : State) : HiddenKept a s (lcdCompare s) := by
  rcases lcdCompare_spec s with ⟨-, -, e⟩ | ⟨-, -, e⟩ | ⟨-, e⟩ <;> rw [e] <;>
    exact ⟨⟨rfl, rfl⟩, ⟨rfl, rfl⟩, fun _ => rfl, fun _ => rfl, fun _ => ⟨rfl, rfl⟩⟩

/-- A power-down changes the watermark, as a store to LCDC may. -/
theorem lcdWriteLcdc (v : Byte) (s : State) : HiddenKept 0xFF40#16 s (lcdWriteLcdc v s) := by
  unfold Machine.lcdWriteLcdc
  simp only
  split
  · rw [lcdPowerDown_eq]
    refine trans ?_ (lcdCompare _)
    exact ⟨⟨rfl, rfl⟩, ⟨rfl, rfl⟩, fun _ => rfl, fun h => absurd rfl h, fun _ => ⟨rfl, rfl⟩⟩
  · exact ⟨⟨rfl, rfl⟩, ⟨rfl, rfl⟩, fun _ => rfl, fun _ => rfl, fun _ => ⟨rfl, rfl⟩⟩

theorem lcdWriteLyc (v : Byte) (s : State) : HiddenKept a s (lcdWriteLyc v s) := by
  refine trans ?_ (lcdCompare _)
  exact ⟨⟨rfl, rfl⟩, ⟨rfl, rfl⟩, fun _ => rfl, fun _ => rfl, fun _ => ⟨rfl, rfl⟩⟩

/-- A store to DMA starts the engine. -/
theorem lcdWriteDma (v : Byte) (s : State) : HiddenKept 0xFF46#16 s (lcdWriteDma v s) :=
  ⟨⟨rfl, rfl⟩, ⟨rfl, rfl⟩, fun _ => rfl, fun _ => rfl, fun h => absurd rfl h⟩

theorem lcdRegWrite {i : Nat} (ha : a.toNat = 0xFF40 + i) (v : Byte) (s : State) :
    HiddenKept a s (lcdRegWrite i v s) := by
  unfold Machine.lcdRegWrite
  split
  case h_1 =>
    obtain rfl : a = 0xFF40#16 := BitVec.eq_of_toNat_eq ha
    exact lcdWriteLcdc v s
  case h_6 => exact lcdWriteLyc v s
  case h_7 =>
    obtain rfl : a = 0xFF46#16 := BitVec.eq_of_toNat_eq ha
    exact lcdWriteDma v s
  all_goals exact ⟨⟨rfl, rfl⟩, ⟨rfl, rfl⟩, fun _ => rfl, fun _ => rfl, fun _ => ⟨rfl, rfl⟩⟩

theorem lcdWrite (s : State) (a : Word) (v : Byte) : HiddenKept a s (lcdWrite s a v) := by
  unfold Machine.lcdWrite
  split
  · exact of_lcd_eq rfl fun _ => rfl
  split
  case isTrue hbank =>
    rw [inWindow_iff] at hbank
    exact lcdRegWrite (by omega) v s
  · exact of_lcd_eq rfl fun _ => rfl

/-! ### The whole write -/

theorem busWrite (s : State) (a : Word) (v : Byte) : HiddenKept a s (busWrite s a v) := by
  rw [busWrite_chain]
  obtain ⟨-, htimer, hlcd, -⟩ := cpuWrite_frame s a v
  obtain ⟨ptimer, plcd, -⟩ := platformWrite_rest a v (Machine.lcdWrite (Machine.timerWrite (cpuWrite s a v) a v) a v)
  have hcpu : HiddenKept a s (cpuWrite s a v) := of_lcd_eq hlcd fun _ => by rw [htimer]
  exact ((hcpu.trans (timerWrite _ a v)).trans (lcdWrite _ a v)).trans (of_lcd_eq plcd fun _ => by rw [ptimer])

end HiddenKept

end Sys2Proof.Machine
end

section
/-! SUPPORT. The frame of a byte store: of the bus write itself, and of what the CPU's own registers do after it
(20_memory.md R74, R83). -/

namespace Sys2Proof.Spec

open Sys2Proof.Machine

variable {stored : List Word} {dest : List Reg8} {a : Word} {v : Byte} {s t u : State}

@[simp] theorem busWrite_reg (s : State) (a : Word) (v : Byte) (r : Reg8) : (busWrite s a v).reg r = s.reg r :=
  (busWrite_frame s a v).1.field (fun c => State.reg { s with cpu := c } r) fun c i e => by cases r <;> rfl

/-- A bus write changes no register, what it touches, and hidden state at its own address. -/
theorem storeFrame_busWrite (s : State) (a : Word) (v : Byte) : StoreFrame [a] [] s (busWrite s a v) where
  regs r _ := busWrite_reg s a v r
  hostEvents := busWrite_hostEvents s a v
  now := busWrite_now s a v
  fatal := busWrite_fatal s a v
  reads _ h := busRead_busWrite_untouched v (h a (List.mem_singleton_self a))
  attached := (RomKept.busWrite a v).kinds
  images := (HiddenKept.busWrite s a v).images
  display := (HiddenKept.busWrite s a v).display
  counter h := (HiddenKept.busWrite s a v).counter (List.ne_of_not_mem_cons h)
  lcdNext h := (HiddenKept.busWrite s a v).lcdNext (List.ne_of_not_mem_cons h)
  dmaEngine h := (HiddenKept.busWrite s a v).dmaEngine (List.ne_of_not_mem_cons h)

/-- Changes to the CPU's own registers after a store. -/
theorem StoreFrame.outside (h : StoreFrame stored [] s t) (hout : Outside t u) (hregs : RegsKept dest t u) :
    StoreFrame stored dest s u where
  regs r hr := (hregs r hr).trans (h.regs r List.not_mem_nil)
  hostEvents := hout.hostEvents.trans h.hostEvents
  now := hout.now.trans h.now
  fatal := hout.fatal.trans h.fatal
  reads b hb := (hout.reads b).trans (h.reads b hb)
  attached := by rw [hout.platform, h.attached]
  images := by rw [hout.lcd]; exact h.images
  display := by rw [hout.lcd]; exact h.display
  counter ha := by rw [hout.timer, h.counter ha]
  lcdNext ha := by rw [hout.lcd, h.lcdNext ha]
  dmaEngine ha := by rw [hout.lcd]; exact h.dmaEngine ha

theorem Delivered.outside {w : State} (h : Delivered w t) (hout : Outside t u) : Delivered w u where
  ifReg := hout.ifReg.trans h.ifReg
  ie := hout.ie.trans h.ie
  timer := hout.timer.trans h.timer
  lcd := hout.lcd.trans h.lcd
  mem := hout.mem.trans h.mem
  platform := hout.platform.trans h.platform

/-- A byte store, and then changes to the CPU's own registers. -/
theorem storesByte_of_outside (hout : Outside (busWrite s a v) u) (hregs : RegsKept dest (busWrite s a v) u) :
    StoresByte a v dest s u where
  frame := (storeFrame_busWrite s a v).outside hout hregs
  delivered := Delivered.outside ⟨rfl, rfl, rfl, rfl, rfl, rfl⟩ hout
  readBack ha hw := (hout.reads a).trans (busRead_busWrite_plainRam v ha hw)

end Sys2Proof.Spec
end

section
/-! SUPPORT. The 8-bit loads and stores (41_load8.md R170 to R188). -/

namespace Sys2Proof.Spec

open Sys2Proof.Machine

variable {i : Instr} {bytes : List Byte} {cost : Nat} {s : State} {a w : Word} {v : Byte}

/-! ## Encodings and operands -/

/-- The field r8 is the encoder's code of a register (30_encoding.md R116). -/
@[simp] theorem ofNat_reg8_code (r : Reg8) : BitVec.ofNat 8 r.code = r8 r := by
  cases r <;> rfl

theorem encode_loadOf (rd : Reg8) (x : Source) : encode (loadOf rd x) = loadBytes rd x := by
  cases x <;> simp [loadOf, loadBytes, encode, formOp, formN8, BitVec.ofNat_add, BitVec.ofNat_mul]

theorem encode_ldHlR (r : Reg8) : encode (.ldHlR r) = [0x70#8 + r8 r] := by
  simp [encode, formOp, BitVec.ofNat_add]

/-- The high page's addresses have 0xFF as their high byte (30_encoding.md R123). -/
theorem highPage_eq_joinBytes (n : Byte) : highPage n = joinBytes 0xFF#8 n := by
  apply BitVec.eq_of_toNat_eq
  rw [joinBytes_toNat]
  unfold highPage
  bv_omega

/-! ## Loads -/

/-- Settles O1: every form writes the source's byte to the one register. -/
theorem loadRegister : Obligations.LoadRegister := by
  intro rd x s
  have hexec : exec (loadOf rd x) s = .next (commit (loadBytes rd x).length x.cost (s.setReg rd (x.value s))) := by
    cases x <;> rfl
  exact ⟨_, registerOnly_setReg (encode_loadOf rd x) hexec, State.setReg_f s rd _,
    (commit_reg _ _ _ rd).trans (State.reg_setReg_self s rd _)⟩

theorem loadsA_of_exec (hencode : encode i = bytes)
    (hexec : exec i s = .next (commit bytes.length cost (s.setReg .a (busRead s a)))) : LoadsA i bytes cost a s :=
  ⟨_, registerOnly_setReg hencode hexec, rfl, rfl⟩

theorem loadsAStepping_of_exec (hencode : encode i = bytes)
    (hexec : exec i s = .next (commit bytes.length 2 ((s.setReg .a (busRead s (hl s))).setHl w))) :
    LoadsAStepping i bytes w s := by
  have hregs : RegsKept [.a, .h, .l] s ((s.setReg .a (busRead s (hl s))).setHl w) := fun r hr => by
    rw [List.mem_cons, not_or] at hr
    obtain ⟨ha, hhl⟩ := hr
    rw [regsKept_setHl _ w r hhl, State.reg_setReg_ne _ _ _ _ ha]
  exact ⟨_, registerOnly_of_commit hencode hexec ((outside_setReg s _ _).trans (outside_setHl _ w)) hregs rfl rfl rfl,
    rfl, rfl, joinBytes_hi_lo w⟩

/-- Settles O2: each form writes A with the byte at its address, and the stepping ones then HL. -/
theorem loadAccumulator : Obligations.LoadAccumulator := fun _ n _ =>
  ⟨loadsA_of_exec rfl rfl, loadsA_of_exec rfl rfl, loadsA_of_exec rfl rfl,
    highPage_eq_joinBytes n ▸ loadsA_of_exec rfl rfl, highPage_eq_joinBytes _ ▸ loadsA_of_exec rfl rfl,
    loadsAStepping_of_exec rfl rfl, loadsAStepping_of_exec rfl rfl⟩

/-! ## Stores -/

theorem storesAt_of_exec (hencode : encode i = bytes)
    (hexec : exec i s = .next (commit bytes.length cost (busWrite s a v))) : StoresAt i bytes cost a v s :=
  ⟨_, runs_of_commit hencode hexec (busWrite_pc s a v) (busWrite_now s a v),
    storesByte_of_outside (outside_commit _ _ _) (regsKept_commit _ _ _ _), by simp, by simp, by simp⟩

theorem storesAStepping_of_exec (hencode : encode i = bytes)
    (hexec : exec i s = .next (commit bytes.length 2 ((busWrite s (hl s) s.cpu.a).setHl w))) :
    StoresAStepping i bytes w s := by
  have hregs : RegsKept [.h, .l] (busWrite s (hl s) s.cpu.a)
      (commit bytes.length 2 ((busWrite s (hl s) s.cpu.a).setHl w)) :=
    fun r hr => (commit_reg _ _ _ r).trans (regsKept_setHl _ w r hr)
  exact ⟨_, runs_of_commit hencode hexec (by simp) (by simp),
    storesByte_of_outside ((outside_setHl _ w).trans (outside_commit _ _ _)) hregs, joinBytes_hi_lo w, by simp, by simp,
    by simp⟩

/-- Settles O3: each form is one bus write at its address, after which the stepping ones write HL. -/
theorem storeByte : Obligations.StoreByte := fun _ r n _ =>
  ⟨storesAt_of_exec (encode_ldHlR r) rfl, storesAt_of_exec rfl rfl, storesAt_of_exec rfl rfl, storesAt_of_exec rfl rfl,
    storesAt_of_exec rfl rfl, highPage_eq_joinBytes n ▸ storesAt_of_exec rfl rfl,
    highPage_eq_joinBytes _ ▸ storesAt_of_exec rfl rfl, storesAStepping_of_exec rfl rfl, storesAStepping_of_exec rfl rfl⟩

end Sys2Proof.Spec
end

section
/-! SUPPORT. What a second store of one instruction still finds of the state before the first: what the attached kinds fix, and
the canonical form of the storage (20_memory.md R70, R74, R80; log 3). -/

namespace Sys2Proof.Machine

variable {s t : State}

/-! ## What the attached kinds fix -/

/-- Whether a component is read-write storage where it serves an address. -/
def PlatformComponent.isRam : PlatformComponent → Bool
  | .workRam => true
  | .memory _ _ writable _ => writable
  | _ => false

theorem plainRam_eq (s : State) (a : Word) :
    s.plainRam a = (coreRam a || (s.server a).any PlatformComponent.isRam) := by
  unfold State.plainRam
  cases s.server a with
  | none => rfl
  | some c => cases c <;> rfl

/-- A test of a component's kind finds the same of the server of an address. -/
theorem server_any_congr (hk : t.platform.map PlatformComponent.kind = s.platform.map PlatformComponent.kind) (a : Word)
    {g : PlatformComponent → Bool} (hg : g ∘ PlatformComponent.kind = g) : (t.server a).any g = (s.server a).any g := by
  have hkind : ∀ u : State, ((u.server a).map PlatformComponent.kind).any g = (u.server a).any g := fun u =>
    Option.any_map.trans (congrArg (Option.any · (u.server a)) hg)
  rw [← hkind t, ← hkind s, server_kind, server_kind, hk]

theorem isRam_comp_kind : PlatformComponent.isRam ∘ PlatformComponent.kind = PlatformComponent.isRam :=
  funext fun c => by cases c <;> rfl

theorem isExternal_comp_kind : PlatformComponent.isExternal ∘ PlatformComponent.kind = PlatformComponent.isExternal :=
  funext fun c => by cases c <;> rfl

theorem plainRam_congr (hk : t.platform.map PlatformComponent.kind = s.platform.map PlatformComponent.kind) (a : Word) :
    t.plainRam a = s.plainRam a := by
  rw [plainRam_eq, plainRam_eq, server_any_congr hk a isRam_comp_kind]

theorem touches_congr (hk : t.platform.map PlatformComponent.kind = s.platform.map PlatformComponent.kind) (a b : Word) :
    t.touches a b = s.touches a b := by
  have hany : t.platform.any PlatformComponent.isExternal = s.platform.any PlatformComponent.isExternal := by
    rw [← isExternal_comp_kind, ← List.any_map, ← List.any_map, hk]
  have hserved : t.servedExternally b = s.servedExternally b := server_any_congr hk b isExternal_comp_kind
  rw [State.touches, State.touches, hany, hserved]

/-! ## The storage stays canonical -/

theorem componentWrite_wf (a : Word) (v : Byte) (s : State) {c : PlatformComponent} (hc : c.wf = true) :
    (PlatformComponent.write a v s c).1.wf = true := by
  cases c with
  | cartridge | external => rfl
  | workRam =>
    rw [componentWrite_workRam]
    rfl
  | memory first last writable cells =>
    rw [PlatformComponent.write]
    dsimp only
    split
    case isFalse => exact hc
    case isTrue hwrite =>
      rw [Bool.and_eq_true, inWindow_iff] at hwrite
      rw [PlatformComponent.wf, Bool.and_eq_true] at hc ⊢
      exact ⟨Memory.wf_write _ _ _ hc.1, Memory.all_write _ _ _ _ (decide_eq_true hwrite.2) hc.2⟩

theorem writeEach_mem_wf (a : Word) (v : Byte) (l : List PlatformComponent) (s : State) (hw : s.mem.wf = true) :
    (writeEach a v l s).2.mem.wf = true := by
  induction l generalizing s with
  | nil => exact hw
  | cons c l ih =>
    refine ih _ ?_
    rcases componentWrite_mem a v s c with ⟨-, k, -, e⟩ | ⟨-, e⟩ <;> rw [e]
    · exact Memory.wf_write _ _ _ hw
    · exact hw

theorem platformWrite_storageWf (a : Word) (v : Byte) (hw : s.storageWf = true) : (platformWrite a v s).storageWf = true := by
  obtain ⟨hmem, hplatform⟩ := (Bool.and_eq_true _ _).mp hw
  refine (Bool.and_eq_true _ _).mpr ⟨writeEach_mem_wf a v s.platform s hmem, ?_⟩
  rw [platformWrite_platform, List.all_map]
  exact List.all_eq_true.2 fun c hc => componentWrite_wf a v s (List.all_eq_true.1 hplatform c hc)

theorem busWrite_storageWf (a : Word) (v : Byte) (hw : s.storageWf = true) : (busWrite s a v).storageWf = true := by
  obtain ⟨hmem, hplatform⟩ := (Bool.and_eq_true _ _).mp hw
  obtain ⟨u, hu⟩ := busWrite_coreStore s a v
  have hstored : u.mem.wf = true := by
    rcases hu.mem with e | ⟨-, e⟩ <;> rw [e]
    · exact hmem
    · exact Memory.wf_write _ _ _ hmem
  rw [hu.delivers]
  exact platformWrite_storageWf a v ((Bool.and_eq_true _ _).mpr ⟨hstored, hu.platform ▸ hplatform⟩)

/-! ## Two stores in plain memory -/

theorem toNat_of_workRamCell {a : Word} {k : Nat} (h : workRamCell a = some k) : a.toNat = k ∨ a.toNat = k + 0x2000 := by
  rw [workRamCell_eq] at h
  split_ifs at h with hdirect hecho
  · exact .inl (Option.some.inj h)
  · have hk := Option.some.inj h
    omega

/-- The echo lies 0x2000 above the byte it mirrors, so that neighbours are no mirrors. -/
theorem mirrors_succ (a : Word) : mirrors (a + 1#16) a = false := by
  refine Bool.eq_false_iff.2 fun h => ?_
  have hcell := workRamCell_of_mirrors h
  rw [mirrors, Bool.and_eq_true] at h
  obtain ⟨k, hk⟩ := Option.isSome_iff_exists.1 h.1
  have ha := toNat_of_workRamCell (hcell.trans hk)
  have hsucc := toNat_of_workRamCell hk
  rw [BitVec.toNat_add] at hsucc
  have hlt := a.isLt
  have h1 : (1#16 : Word).toNat = 1 := rfl
  omega

/-- A register of the core is no plain memory. -/
theorem plainRam_of_register {a : Word} (hcore : coreDecodes a = true) (hram : coreRam a = false) : s.plainRam a = false := by
  rw [State.plainRam, hram, State.server, if_pos hcore]
  rfl

/-- What a store may change besides its own byte and its mirror is a register. -/
theorem plainRam_of_mem_sideAddresses {a b : Word} (h : b ∈ sideAddresses a) : s.plainRam b = false := by
  have hregister : (sideAddresses a).all (fun x => coreDecodes x && !coreRam x) = true := by
    unfold sideAddresses
    split_ifs <;> rfl
  have hb := List.all_eq_true.1 hregister b h
  rw [Bool.and_eq_true, Bool.not_eq_true'] at hb
  exact plainRam_of_register hb.1 hb.2

/-- Plain memory is not served by a component specified only at its boundary. -/
theorem servedExternally_of_plainRam {a : Word} (h : s.plainRam a = true) : s.servedExternally a = false := by
  rw [State.servedExternally]
  rcases plainRam_cases h with hram | hserver | ⟨_, _, _, hserver⟩
  · have hcore : coreDecodes a = true := by
      rw [coreRam_iff] at hram
      rw [coreDecodes_iff]
      omega
    rw [State.server, if_pos hcore]
    rfl
  · rw [hserver]
    rfl
  · rw [hserver]
    rfl

/-- In plain memory a store leaves the byte below its own. -/
theorem touches_succ_of_plainRam {a : Word} (h : s.plainRam a = true) : s.touches (a + 1#16) a = false := by
  have hne : a + 1#16 ≠ a := by bv_omega
  have hside : a ∉ sideAddresses (a + 1#16) := fun hmem => by simp [plainRam_of_mem_sideAddresses hmem] at h
  have hif : a ≠ 0xFF0F#16 := fun he => by subst he; cases h
  simp [State.touches, hne, mirrors_succ, hside, hif, servedExternally_of_plainRam h]

/-- The bytes of a word store read back from plain memory, each at its address. -/
theorem busRead_busWrite16_plainRam {a : Word} (v : Word) (ha : s.plainRam a = true) (ha' : s.plainRam (a + 1#16) = true)
    (hw : s.storageWf = true) : busRead (busWrite16 s a v) a = lo v ∧ busRead (busWrite16 s a v) (a + 1#16) = hi v := by
  have hk := (RomKept.busWrite (s := s) a (lo v)).kinds
  constructor
  · rw [busWrite16, busRead_busWrite_untouched _ ((touches_congr hk _ _).trans (touches_succ_of_plainRam ha)),
      busRead_busWrite_plainRam _ ha hw]
  · exact busRead_busWrite_plainRam _ ((plainRam_congr hk _).trans ha') (busWrite_storageWf a (lo v) hw)

end Sys2Proof.Machine
end

section
/-! SUPPORT. The stack pointer plays no part in a bus write, so that a push is its word store and then its write of SP
(20_memory.md R71, R74; 42_load16_stack.md R204). -/

namespace Sys2Proof.Machine

theorem State.setSp_ite (c : Prop) [Decidable c] (s t : State) (w : Word) :
    (if c then s else t).setSp w = if c then s.setSp w else t.setSp w := apply_ite (State.setSp · w) c s t

theorem cpuWrite_setSp (s : State) (a : Word) (v : Byte) (w : Word) :
    cpuWrite (s.setSp w) a v = (cpuWrite s a v).setSp w := by
  simp only [cpuWrite, State.setSp_ite]
  rfl

theorem timerChange_setSp (r : Timer) (s : State) (w : Word) :
    timerChange r (s.setSp w) = (timerChange r s).setSp w := by
  simp only [timerChange, incTima, State.setSp_ite]
  rfl

theorem timerWrite_setSp (s : State) (a : Word) (v : Byte) (w : Word) :
    timerWrite (s.setSp w) a v = (timerWrite s a v).setSp w := by
  simp only [timerWrite, State.setSp_ite, ← timerChange_setSp]
  rfl

theorem lcdCompare_setSp (s : State) (w : Word) : lcdCompare (s.setSp w) = (lcdCompare s).setSp w := by
  simp only [lcdCompare, State.setSp_ite]
  rfl

theorem lcdWriteLcdc_setSp (v : Byte) (s : State) (w : Word) :
    lcdWriteLcdc v (s.setSp w) = (lcdWriteLcdc v s).setSp w := by
  simp only [lcdWriteLcdc, lcdPowerDown_eq, State.setSp_ite, ← lcdCompare_setSp]
  rfl

theorem lcdRegWrite_setSp (i : Nat) (v : Byte) (s : State) (w : Word) :
    lcdRegWrite i v (s.setSp w) = (lcdRegWrite i v s).setSp w := by
  unfold lcdRegWrite
  split
  case h_1 => exact lcdWriteLcdc_setSp v s w
  case h_6 => exact lcdCompare_setSp { s with lcd := { s.lcd with lyc := v } } w
  all_goals rfl

theorem lcdWrite_setSp (s : State) (a : Word) (v : Byte) (w : Word) :
    lcdWrite (s.setSp w) a v = (lcdWrite s a v).setSp w := by
  simp only [lcdWrite, lcdRegWrite_setSp, State.setSp_ite]
  rfl

theorem requestAll_setSp (l : List (Fin 5)) (s : State) (w : Word) :
    requestAll l (s.setSp w) = (requestAll l s).setSp w := by
  induction l generalizing s with
  | nil => rfl
  | cons i l ih => exact ih (requestInterrupt i.val s)

theorem componentWrite_setSp (a : Word) (v : Byte) (s : State) (w : Word) (c : PlatformComponent) :
    PlatformComponent.write a v (s.setSp w) c =
      ((PlatformComponent.write a v s c).1, (PlatformComponent.write a v s c).2.setSp w) := by
  cases c with
  | cartridge => rfl
  | workRam =>
    simp only [PlatformComponent.write]
    split <;> rfl
  | memory first last writable cells => rfl
  | external number own => exact congrArg (Prod.mk _) (requestAll_setSp _ s w)

theorem writeEach_setSp (a : Word) (v : Byte) (l : List PlatformComponent) (s : State) (w : Word) :
    writeEach a v l (s.setSp w) = ((writeEach a v l s).1, (writeEach a v l s).2.setSp w) := by
  induction l generalizing s with
  | nil => rfl
  | cons c l ih => simp only [writeEach, componentWrite_setSp, ih]

theorem platformWrite_setSp (a : Word) (v : Byte) (s : State) (w : Word) :
    platformWrite a v (s.setSp w) = (platformWrite a v s).setSp w := by
  simp only [platformWrite, State.setSp_platform, writeEach_setSp]
  rfl

theorem busWrite_setSp (s : State) (a : Word) (v : Byte) (w : Word) :
    busWrite (s.setSp w) a v = (busWrite s a v).setSp w := by
  rw [busWrite_chain, cpuWrite_setSp, timerWrite_setSp, lcdWrite_setSp, platformWrite_setSp, busWrite_chain]

/-- A push is the word store below the stack, and then the new SP. -/
theorem push16_eq (v : Word) (s : State) :
    push16 v s = (busWrite16 s (s.cpu.sp - 2#16) v).setSp (s.cpu.sp - 2#16) := by
  rw [push16, busWrite16, busWrite_setSp, busWrite_setSp, busWrite16]

end Sys2Proof.Machine
end

section
/-! SUPPORT. The frame of a word store, and what a push does (20_memory.md R80; 42_load16_stack.md R204). -/

namespace Sys2Proof.Spec

open Sys2Proof.Machine

variable {stored later : List Word} {a v : Word} {s t u : State}

/-- One store after another: what the second touches is fixed by the attached kinds, which the first keeps. -/
theorem StoreFrame.append (h : StoreFrame stored [] s t) (h' : StoreFrame later [] t u) :
    StoreFrame (stored ++ later) [] s u where
  regs r hr := (h'.regs r hr).trans (h.regs r hr)
  hostEvents := h'.hostEvents.trans h.hostEvents
  now := h'.now.trans h.now
  fatal := h'.fatal.trans h.fatal
  reads b hb :=
    (h'.reads b fun x hx => (touches_congr h.attached x b).trans (hb x (List.mem_append_right _ hx))).trans
      (h.reads b fun x hx => hb x (List.mem_append_left _ hx))
  attached := h'.attached.trans h.attached
  images := ⟨h'.images.1.trans h.images.1, h'.images.2.trans h.images.2⟩
  display := ⟨h'.display.1.trans h.display.1, h'.display.2.trans h.display.2⟩
  counter hx := by
    rw [List.mem_append, not_or] at hx
    exact (h'.counter hx.2).trans (h.counter hx.1)
  lcdNext hx := by
    rw [List.mem_append, not_or] at hx
    exact (h'.lcdNext hx.2).trans (h.lcdNext hx.1)
  dmaEngine hx := by
    rw [List.mem_append, not_or] at hx
    exact ⟨(h'.dmaEngine hx.2).1.trans (h.dmaEngine hx.1).1, (h'.dmaEngine hx.2).2.trans (h.dmaEngine hx.1).2⟩

/-- A word store, and then changes to the CPU's own registers. -/
theorem storesWord_of_outside (hout : Outside (busWrite16 s a v) u) (hregs : RegsKept [] (busWrite16 s a v) u) :
    StoresWord a v s u where
  frame := ((storeFrame_busWrite s a (lo v)).append (storeFrame_busWrite _ (a + 1#16) (hi v))).outside hout hregs
  delivered := Delivered.outside ⟨rfl, rfl, rfl, rfl, rfl, rfl⟩ hout
  readBack ha ha' hw := by
    rw [hout.reads, hout.reads]
    exact busRead_busWrite16_plainRam v ha ha' hw

theorem outside_setSp (s : State) (w : Word) : Outside s (s.setSp w) := .of_cpu rfl rfl

theorem outside_jumpTo (s : State) (target : Word) (cost : Nat) : Outside s (jumpTo target cost s) := .of_cpu rfl rfl

@[simp] theorem busWrite16_pc (s : State) (a v : Word) : (busWrite16 s a v).cpu.pc = s.cpu.pc := by simp [busWrite16]
@[simp] theorem busWrite16_f (s : State) (a v : Word) : (busWrite16 s a v).cpu.f = s.cpu.f := by simp [busWrite16]
@[simp] theorem busWrite16_sp (s : State) (a v : Word) : (busWrite16 s a v).cpu.sp = s.cpu.sp := by simp [busWrite16]
@[simp] theorem busWrite16_ime (s : State) (a v : Word) : (busWrite16 s a v).cpu.ime = s.cpu.ime := by simp [busWrite16]
@[simp] theorem busWrite16_now (s : State) (a v : Word) : (busWrite16 s a v).now = s.now := by simp [busWrite16]
@[simp] theorem push16_pc (v : Word) (s : State) : (push16 v s).cpu.pc = s.cpu.pc := by simp [push16_eq]
@[simp] theorem push16_f (v : Word) (s : State) : (push16 v s).cpu.f = s.cpu.f := by simp [push16_eq]
@[simp] theorem push16_ime (v : Word) (s : State) : (push16 v s).cpu.ime = s.cpu.ime := by simp [push16_eq]
@[simp] theorem push16_now (v : Word) (s : State) : (push16 v s).now = s.now := by simp [push16_eq]

/-- A push and then a jump, as a call does, or a commit, as PUSH does. -/
theorem pushes_jumpTo (v : Word) (s : State) (target : Word) (cost : Nat) :
    Pushes v s (jumpTo target cost (push16 v s)) := by
  refine ⟨by simp [push16_sp], ?_⟩
  rw [push16_eq]
  exact storesWord_of_outside ((outside_setSp _ _).trans (outside_jumpTo _ _ _)) fun r _ => by simp

/-- In plain memory the word pushed is the word on the stack. -/
theorem stacked_of_pushes (h : Pushes v s t) (hw : s.storageWf = true) (hlow : s.plainRam (s.cpu.sp - 2#16) = true)
    (hhigh : s.plainRam (s.cpu.sp - 1#16) = true) : stacked t = v := by
  obtain ⟨hsp, hstored⟩ := h
  have hnext : s.cpu.sp - 2#16 + 1#16 = s.cpu.sp - 1#16 := by bv_omega
  obtain ⟨hl, hh⟩ := hstored.readBack hlow (hnext ▸ hhigh) hw
  rw [stacked, hsp, hl, hh, joinBytes_hi_lo]

end Sys2Proof.Spec
end

section
/-! SUPPORT. The 16-bit loads and the stack (42_load16_stack.md R200 to R205; 44_arith16.md R251; 46_control.md R286 to R290). -/

namespace Sys2Proof.Spec

open Sys2Proof.Machine

variable {i : Instr} {bytes : List Byte} {cost : Nat} {s t : State} {v w : Word}

/-! ## Encodings -/

/-- The field r16 is the encoder's code of a pair (30_encoding.md R117). -/
@[simp] theorem ofNat_pair_code (p : Pair) : BitVec.ofNat 8 (16 * p.code) = r16 p := by
  cases p <;> rfl

/-- The field r16stk is the encoder's code of a stack pair (30_encoding.md R118). -/
@[simp] theorem ofNat_stackPair_code (p : StackPair) : BitVec.ofNat 8 (16 * p.code) = r16stk p := by
  cases p <;> rfl

theorem encode_ldRrN16 (p : Pair) (w : Word) : encode (.ldRrN16 p w) = [0x01#8 + r16 p, lo w, hi w] := by
  rw [encode, formN16, BitVec.ofNat_add, ofNat_pair_code]

theorem encode_pushRr (p : StackPair) : encode (.pushRr p) = [0xC5#8 + r16stk p] := by
  rw [encode, formOp, BitVec.ofNat_add, ofNat_stackPair_code]

theorem encode_popRr (p : StackPair) : encode (.popRr p) = [0xC1#8 + r16stk p] := by
  rw [encode, formOp, BitVec.ofNat_add, ofNat_stackPair_code]

/-! ## Writes of a pair -/

theorem outside_setPair (s : State) (p : Pair) (v : Word) : Outside s (s.setPair p v) := by
  cases p <;> exact .of_cpu rfl rfl

theorem regsKept_setReg_setReg (s : State) (r q : Reg8) (x y : Byte) : RegsKept [r, q] s ((s.setReg r x).setReg q y) :=
  fun p hp => by
    obtain ⟨hr, hq⟩ : p ≠ r ∧ p ≠ q := by simpa using hp
    rw [State.reg_setReg_ne _ q p y hq, State.reg_setReg_ne s r p x hr]

theorem regsKept_setPair (s : State) (p : Pair) (v : Word) : RegsKept (pairRegs p) s (s.setPair p v) := by
  cases p with
  | bc => exact regsKept_setReg_setReg s .b .c (hi v) (lo v)
  | de => exact regsKept_setReg_setReg s .d .e (hi v) (lo v)
  | hl => exact regsKept_setHl s v
  | sp => exact fun r _ => State.setSp_reg s v r

@[simp] theorem setPair_pc (s : State) (p : Pair) (v : Word) : (s.setPair p v).cpu.pc = s.cpu.pc := by cases p <;> rfl
@[simp] theorem setPair_f (s : State) (p : Pair) (v : Word) : (s.setPair p v).cpu.f = s.cpu.f := by cases p <;> rfl
@[simp] theorem setPair_ime (s : State) (p : Pair) (v : Word) : (s.setPair p v).cpu.ime = s.cpu.ime := by cases p <;> rfl

theorem setPair_sp_of_ne (s : State) {p : Pair} (v : Word) (hp : p ≠ .sp) : (s.setPair p v).cpu.sp = s.cpu.sp := by
  cases p with
  | sp => exact absurd rfl hp
  | bc | de | hl => rfl

theorem pairValue_eq (s : State) (p : Pair) : pairValue s p = s.pair p := by
  cases p <;> rfl

@[simp] theorem pairValue_commit (s : State) (len cost : Nat) (p : Pair) : pairValue (commit len cost s) p = pairValue s p := by
  cases p <;> rfl

@[simp] theorem pairValue_setPair (s : State) (p : Pair) (v : Word) : pairValue (s.setPair p v) p = v := by
  rw [pairValue_eq, pair_setPair]

theorem stackPairValue_eq (s : State) (p : StackPair) : stackPairValue s p = s.stackPair p := by
  cases p <;> rfl

/-- SP moved and then a pair written, which may be SP itself, and then the commit. -/
theorem loadsPair_of_exec {p : Pair} (hencode : encode i = bytes)
    (hexec : exec i s = .next (commit bytes.length cost ((s.setSp w).setPair p v))) :
    ∃ t, Runs i bytes cost s t ∧ Outside s t ∧ RegsKept (pairRegs p) s t ∧ t.cpu.f = s.cpu.f ∧ t.cpu.ime = s.cpu.ime ∧
      (p ≠ .sp → t.cpu.sp = w) ∧ pairValue t p = v := by
  have hout : Outside s ((s.setSp w).setPair p v) := (outside_setSp s w).trans (outside_setPair _ p v)
  have hregs : RegsKept (pairRegs p) s ((s.setSp w).setPair p v) := fun r hr =>
    (regsKept_setPair _ p v r hr).trans (State.setSp_reg s w r)
  exact ⟨_, runs_of_commit hencode hexec (by simp) hout.now, hout.trans (outside_commit _ _ _),
    fun r hr => (commit_reg _ _ _ r).trans (hregs r hr), by simp, by simp, setPair_sp_of_ne _ v, by simp⟩

/-- Settles O4: LD SP,HL is a load of the pair SP. -/
theorem loadPair : Obligations.LoadPair := by
  refine ⟨fun p w s => loadsPair_of_exec (w := s.cpu.sp) (encode_ldRrN16 p w) rfl, fun s => ?_⟩
  obtain ⟨t, hruns, hout, hregs, hf, hime, -, hsp⟩ :=
    loadsPair_of_exec (i := .ldSpHl) (s := s) (w := s.cpu.sp) (p := .sp) (v := hl s) rfl rfl
  exact ⟨t, hruns, hout, hregs, hf, hime, hsp⟩

/-! ## The sums with SP -/

@[simp] theorem lo_sext16 (e : Byte) : lo (sext16 e) = e := by
  refine BitVec.eq_of_getLsbD_eq fun i hi => ?_
  have hi' : i < 16 := by omega
  simp [lo, sext16, BitVec.getElem_signExtend, hi, hi']

/-- H and C of the sum with a displacement are those of the unsigned sum of the low bytes (40_alu.md R143). -/
theorem addsTo_aluAdd16Low (l : Word) (e : Byte) :
    AddsTo (lo l) e 0 (lo l + e) (aluAdd16Low l (sext16 e)).flags.h (aluAdd16Low l (sext16 e)).flags.c := by
  have he : (sext16 e).toNat % 256 = e.toNat := by rw [← lo_toNat, lo_sext16]
  have hl := lo_toNat l
  have hlt := e.isLt
  simp only [AddsTo, aluAdd16Low, BitVec.toNat_add, Bool.toNat, Bool.cond_decide]
  constructor <;> split <;> omega

/-- The flags of the two additions to SP: Z and N cleared, H and C the sum's. -/
theorem flagsAre_commit_spAddFlags (s : State) (len cost : Nat) (f : Flags) :
    FlagsAre (commit len cost (spAddFlags f s)) false false f.h f.c := flagsAre_commit_setFlags s len cost _ _ _ _

theorem outside_spAddFlags (s : State) (f : Flags) : Outside s (spAddFlags f s) := outside_setFlags s _ _ _ _

@[simp] theorem spAddFlags_reg (s : State) (f : Flags) (r : Reg8) : (spAddFlags f s).reg r = s.reg r :=
  State.setFlags_reg s _ _ _ _ r

/-- LD HL,SP+e8 writes the sum to HL, and then its flags. -/
theorem ldHlSpE8_spec (e : Byte) (s : State) :
    ∃ t, RegisterOnly (.ldHlSpE8 e) [0xF8#8, e] 3 [.h, .l] s t ∧ hl t = s.cpu.sp + e.signExtend 16 ∧
      FlagsAre t false false (aluAdd16Low s.cpu.sp (sext16 e)).flags.h (aluAdd16Low s.cpu.sp (sext16 e)).flags.c := by
  refine ⟨_, registerOnly_of_commit rfl rfl ((outside_setHl s _).trans (outside_spAddFlags _ _)) (fun r hr => ?_) rfl rfl rfl,
    joinBytes_hi_lo _, flagsAre_commit_spAddFlags _ _ _ _⟩
  exact (spAddFlags_reg _ _ r).trans (regsKept_setHl s _ r hr)

/-- ADD SP,e8 writes the sum to SP, and then its flags. -/
theorem addSpE8_spec (e : Byte) (s : State) :
    ∃ u, Runs (.addSpE8 e) [0xE8#8, e] 4 s u ∧ Outside s u ∧ RegsKept [] s u ∧ u.cpu.ime = s.cpu.ime ∧
      u.cpu.sp = s.cpu.sp + e.signExtend 16 ∧
      FlagsAre u false false (aluAdd16Low s.cpu.sp (sext16 e)).flags.h (aluAdd16Low s.cpu.sp (sext16 e)).flags.c :=
  ⟨_, runs_of_commit rfl rfl rfl rfl,
    (outside_setSp s _).trans ((outside_spAddFlags _ _).trans (outside_commit _ _ _)), fun r _ => by simp, rfl, rfl,
    flagsAre_commit_spAddFlags _ _ _ _⟩

/-- Settles O5: the two instructions write one sum and its flags. -/
theorem spPlusOffset : Obligations.SpPlusOffset := by
  intro e s
  obtain ⟨t, ht⟩ := ldHlSpE8_spec e s
  obtain ⟨u, hu⟩ := addSpE8_spec e s
  exact ⟨t, u, _, _, _, addsTo_aluAdd16Low s.cpu.sp e, ht, hu⟩

/-! ## Word stores -/

/-- Settles O6: the word store, and then the commit. -/
theorem storeStackPointer : Obligations.StoreStackPointer := fun w s =>
  ⟨commit 3 5 (busWrite16 s w s.cpu.sp), runs_of_commit (bytes := [0x08#8, lo w, hi w]) rfl rfl (by simp) (by simp),
    storesWord_of_outside (outside_commit _ _ _) (regsKept_commit _ _ _ _), by simp, by simp, by simp⟩

/-- Settles O7: the push of the pair's word, and then the commit. -/
theorem pushPair : Obligations.PushPair := fun p s =>
  ⟨commit 1 4 (push16 (s.stackPair p) s), runs_of_commit (encode_pushRr p) rfl (by simp) (by simp),
    stackPairValue_eq s p ▸ pushes_jumpTo _ s _ _, by simp, by simp⟩

/-! ## Pops -/

/-- Settles O8: a pop is a move of SP and then a load of the pair; into AF the low byte is masked. -/
theorem popPair : Obligations.PopPair := by
  constructor
  · intro p q s hpq
    obtain ⟨hp, hexec⟩ : p ≠ .sp ∧
        exec (.popRr q) s = .next (commit 1 3 ((s.setSp (s.cpu.sp + 2#16)).setPair p (stacked s))) := by
      simp only [List.mem_cons, List.not_mem_nil, or_false, Prod.mk.injEq] at hpq
      rcases hpq with ⟨rfl, rfl⟩ | ⟨rfl, rfl⟩ | ⟨rfl, rfl⟩ <;> exact ⟨nofun, rfl⟩
    obtain ⟨t, hruns, hout, hregs, hf, hime, hsp, hpair⟩ := loadsPair_of_exec (encode_popRr q) hexec
    exact ⟨t, hruns, hout, hregs, hf, hime, hsp hp, hpair⟩
  · intro s
    refine ⟨_, runs_of_commit rfl rfl rfl rfl, .of_cpu rfl rfl, fun r hr => ?_, rfl, rfl, hi_joinBytes _ _,
      congrArg (· &&& 0xF0#8) (lo_joinBytes _ _)⟩
    cases r with
    | a => simp at hr
    | b | c | d | e | h | l => rfl

/-! ## Round trips -/

/-- AF without the low nibble of F (10_state.md R24). -/
theorem joinBytes_mask (v : Word) : joinBytes (hi v) (lo v &&& 0xF0#8) = v &&& 0xFFF0#16 :=
  calc joinBytes (hi v) (lo v &&& 0xF0#8)
      = joinBytes (hi v &&& BitVec.allOnes 8) (lo v &&& 0xF0#8) := by rw [BitVec.and_allOnes]
    _ = joinBytes (hi v) (lo v) &&& joinBytes (BitVec.allOnes 8) 0xF0#8 := BitVec.and_append.symm
    _ = v &&& 0xFFF0#16 := by rw [joinBytes_hi_lo]; rfl

/-- What a pop leaves in its pair and in SP. -/
theorem exec_popRr_spec (q : StackPair) (t : State) :
    ∃ u, exec (.popRr q) t = .next u ∧ u.cpu.sp = t.cpu.sp + 2#16 ∧
      stackPairValue u q = if q = .af then stacked t &&& 0xFFF0#16 else stacked t := by
  refine ⟨_, rfl, by cases q <;> rfl, ?_⟩
  rw [← joinBytes_mask, ← stackPair_setStackPair (popState t) q, stackPairValue_eq]
  cases q <;> rfl

/-- A return after a push of the return address, as a call makes it. -/
theorem exec_ret_of_pushes {back : Word} (h : Pushes back s t) (hback : stacked t = back) (hf : t.cpu.f = s.cpu.f) :
    ∃ u, exec .ret t = .next u ∧ u.cpu.pc = back ∧ u.cpu.sp = s.cpu.sp ∧ RegsKept [] s u ∧ u.cpu.f = s.cpu.f := by
  obtain ⟨hsp, hstored⟩ := h
  refine ⟨_, rfl, hback, ?_, fun r hr => ?_, hf⟩
  · show t.cpu.sp + 2#16 = _
    rw [hsp, BitVec.sub_add_cancel]
  · rw [jumpTo_reg, popState, State.setSp_reg, hstored.frame.regs r hr]

/-- Settles O30: after a push into plain memory the word pushed is the word on the stack. -/
theorem stackRoundTrips : Obligations.StackRoundTrips := by
  intro p q w k s hw hlow hhigh
  have hstacked : ∀ (v target : Word) (cost : Nat), stacked (jumpTo target cost (push16 v s)) = v := fun v _ _ =>
    stacked_of_pushes (pushes_jumpTo v s _ _) hw hlow hhigh
  refine ⟨?_, ?_, ?_⟩
  · obtain ⟨u, hu, hsp, hpair⟩ := exec_popRr_spec q (commit 1 4 (push16 (s.stackPair p) s))
    rw [commit, hstacked, ← stackPairValue_eq] at hpair
    refine ⟨_, u, rfl, hu, ?_, hpair⟩
    rw [hsp, commit_sp, push16_sp, BitVec.sub_add_cancel]
  · obtain ⟨u, hu⟩ := exec_ret_of_pushes (pushes_jumpTo (nextPc 3 s) s w 6) (hstacked _ _ _) (by simp)
    exact ⟨_, u, rfl, rfl, hu⟩
  · obtain ⟨u, hu⟩ := exec_ret_of_pushes (pushes_jumpTo (nextPc 1 s) s (BitVec.ofNat 16 (8 * k.val)) 4) (hstacked _ _ _)
      (by simp)
    exact ⟨_, u, rfl, rfl, hu⟩

end Sys2Proof.Spec
end

section
/-! SUPPORT. The ALU's sums and differences as the two equations of the statements, and DAA after a sum or a difference of
packed decimal bytes (40_alu.md R141, R142, R145). -/

namespace Sys2Proof.Machine

open Sys2Proof.Spec

/-! ## Sums and differences -/

theorem addsTo_aluAdd (l r : Byte) (cin : Bool) :
    AddsTo l r cin.toNat (aluAdd l r cin).value (aluAdd l r cin).flags.h (aluAdd l r cin).flags.c := by
  have hl := l.isLt
  have hr := r.isLt
  have hcin := cin.toNat_le
  rw [AddsTo, aluAdd_value_toNat]
  simp only [aluAdd, Bool.toNat, Bool.cond_decide] at hcin ⊢
  constructor <;> split <;> omega

theorem subtractsTo_aluSub (l r : Byte) (bin : Bool) :
    SubtractsTo l r bin.toNat (aluSub l r bin).value (aluSub l r bin).flags.h (aluSub l r bin).flags.c := by
  have hl := l.isLt
  have hr := r.isLt
  have hbin := bin.toNat_le
  rw [SubtractsTo, AddsTo, aluSub_value_toNat, aluSub_carry, aluSub_halfCarry]
  simp only [Bool.toNat, Bool.cond_decide] at hbin ⊢
  constructor <;> split <;> omega

/-- A difference is zero when its operands are equal. -/
theorem aluSub_zero (l r : Byte) : (aluSub l r false).flags.z = decide (l = r) := by
  have hl := l.isLt
  have hr := r.isLt
  have hvalue := aluSub_value_toNat l r false
  rw [Bool.toNat_false] at hvalue
  show decide ((aluSub l r false).value = 0#8) = _
  rw [decide_eq_decide, ← BitVec.toNat_inj, ← BitVec.toNat_inj, hvalue, BitVec.toNat_ofNat]
  omega

/-! ## Packed decimal -/

section Packed

variable {x y : Nat} {v : Byte} {h c : Bool}

theorem packed_toNat (hx : x < 100) : (packed x).toNat = 16 * (x / 10) + x % 10 := by
  rw [packed, BitVec.toNat_ofNat]
  omega

/-- After a sum the low fix is made when the low digits carry. -/
theorem bcdLow_of_addsTo (hx : x < 100) (hy : y < 100) (hsum : AddsTo (packed x) (packed y) 0 v h c) :
    bcdLow v false h = decide (10 ≤ x % 10 + y % 10) := by
  obtain ⟨-, hlow⟩ := hsum
  rw [packed_toNat hx, packed_toNat hy] at hlow
  rw [Bool.eq_iff_iff, bcdLow_iff, decide_eq_true_iff, ← Bool.toNat_eq_one, eq_self, true_and]
  have hh := h.toNat_le
  omega

/-- After a sum the high fix is made when the numbers carry. -/
theorem bcdHigh_of_addsTo (hx : x < 100) (hy : y < 100) (hsum : AddsTo (packed x) (packed y) 0 v h c) :
    bcdHigh v false c = decide (100 ≤ x + y) := by
  obtain ⟨hbyte, -⟩ := hsum
  rw [packed_toNat hx, packed_toNat hy] at hbyte
  rw [Bool.eq_iff_iff, bcdHigh_iff, decide_eq_true_iff, ← Bool.toNat_eq_one, eq_self, true_and]
  have hc := c.toNat_le
  omega

theorem aluBcdAdjust_of_addsTo (hx : x < 100) (hy : y < 100) (hsum : AddsTo (packed x) (packed y) 0 v h c) :
    (aluBcdAdjust v false h c).value = packed ((x + y) % 100) := by
  apply BitVec.eq_of_toNat_eq
  rw [aluBcdAdjust_value_toNat, bcdLow_of_addsTo hx hy hsum, bcdHigh_of_addsTo hx hy hsum,
    packed_toNat (Nat.mod_lt _ (by decide))]
  obtain ⟨hbyte, -⟩ := hsum
  rw [packed_toNat hx, packed_toNat hy] at hbyte
  simp only [bcdFix, decide_eq_true_eq, Bool.false_eq_true, if_false]
  have hc := c.toNat_le
  split <;> split <;> omega

/-- With N set a fix is made on the flag alone. -/
theorem bcdLow_of_n (v : Byte) (h : Bool) : bcdLow v true h = h := Bool.or_false h

theorem bcdHigh_of_n (v : Byte) (c : Bool) : bcdHigh v true c = c := Bool.or_false c

/-- After a difference the low fix is made when the low digits borrow. -/
theorem bcdLow_of_subtractsTo (hx : x < 100) (hy : y < 100) (hdiff : SubtractsTo (packed x) (packed y) 0 v h c) :
    bcdLow v true h = decide (x % 10 < y % 10) := by
  obtain ⟨-, hlow⟩ := hdiff
  rw [packed_toNat hx, packed_toNat hy] at hlow
  rw [bcdLow_of_n, Bool.eq_iff_iff, decide_eq_true_iff, ← Bool.toNat_eq_one]
  have hh := h.toNat_le
  omega

/-- After a difference the high fix is made when the numbers borrow. -/
theorem bcdHigh_of_subtractsTo (hx : x < 100) (hy : y < 100) (hdiff : SubtractsTo (packed x) (packed y) 0 v h c) :
    bcdHigh v true c = decide (x < y) := by
  obtain ⟨hbyte, -⟩ := hdiff
  rw [packed_toNat hx, packed_toNat hy] at hbyte
  rw [bcdHigh_of_n, Bool.eq_iff_iff, decide_eq_true_iff, ← Bool.toNat_eq_one]
  have hv := v.isLt
  have hc := c.toNat_le
  omega

theorem aluBcdAdjust_of_subtractsTo (hx : x < 100) (hy : y < 100) (hdiff : SubtractsTo (packed x) (packed y) 0 v h c) :
    (aluBcdAdjust v true h c).value = packed ((x + 100 - y) % 100) := by
  apply BitVec.eq_of_toNat_eq
  rw [aluBcdAdjust_value_toNat, bcdLow_of_subtractsTo hx hy hdiff, bcdHigh_of_subtractsTo hx hy hdiff,
    packed_toNat (Nat.mod_lt _ (by decide))]
  obtain ⟨hbyte, -⟩ := hdiff
  rw [packed_toNat hx, packed_toNat hy] at hbyte
  simp only [bcdFix, decide_eq_true_eq, if_true]
  have hc := c.toNat_le
  split <;> split <;> omega

end Packed

end Sys2Proof.Machine
end

section
/-! SUPPORT. The 8-bit arithmetic and logic (43_arith8.md R215 to R247). -/

namespace Sys2Proof.Spec

open Sys2Proof.Machine

variable {i : Instr} {bytes : List Byte} {cost : Nat} {s t : State}

/-! ## Encodings -/

theorem encode_addOf (withCarry : Bool) (x : Source) :
    encode (addOf withCarry x) = aluBytes (if withCarry then 1#8 else 0#8) x := by
  cases x <;> cases withCarry <;> simp [addOf, aluBytes, encode, formOp, formN8, BitVec.ofNat_add]

theorem encode_subOf (withCarry : Bool) (x : Source) :
    encode (subOf withCarry x) = aluBytes (if withCarry then 3#8 else 2#8) x := by
  cases x <;> cases withCarry <;> simp [subOf, aluBytes, encode, formOp, formN8, BitVec.ofNat_add]

theorem encode_cpOf (x : Source) : encode (cpOf x) = aluBytes 7#8 x := by
  cases x <;> simp [cpOf, aluBytes, encode, formOp, formN8, BitVec.ofNat_add]

theorem encode_andOf (x : Source) : encode (andOf x) = aluBytes 4#8 x := by
  cases x <;> simp [andOf, aluBytes, encode, formOp, formN8, BitVec.ofNat_add]

theorem encode_xorOf (x : Source) : encode (xorOf x) = aluBytes 5#8 x := by
  cases x <;> simp [xorOf, aluBytes, encode, formOp, formN8, BitVec.ofNat_add]

theorem encode_orOf (x : Source) : encode (orOf x) = aluBytes 6#8 x := by
  cases x <;> simp [orOf, aluBytes, encode, formOp, formN8, BitVec.ofNat_add]

theorem encode_incR (r : Reg8) : encode (.incR r) = [0x04#8 + 8#8 * r8 r] := by
  simp [encode, formOp, BitVec.ofNat_add, BitVec.ofNat_mul]

theorem encode_decR (r : Reg8) : encode (.decR r) = [0x05#8 + 8#8 * r8 r] := by
  simp [encode, formOp, BitVec.ofNat_add, BitVec.ofNat_mul]

/-! ## One operation on three sources -/

theorem exec_addOf (withCarry : Bool) (x : Source) (s : State) :
    exec (addOf withCarry x) s =
      .next (commit (aluBytes (if withCarry then 1#8 else 0#8) x).length x.cost
        (accAdd (x.value s) (withCarry && s.fC) s)) := by
  cases x <;> cases withCarry <;> rfl

theorem exec_subOf (withCarry : Bool) (x : Source) (s : State) :
    exec (subOf withCarry x) s =
      .next (commit (aluBytes (if withCarry then 3#8 else 2#8) x).length x.cost
        (accSub (x.value s) (withCarry && s.fC) s)) := by
  cases x <;> cases withCarry <;> rfl

theorem exec_cpOf (x : Source) (s : State) :
    exec (cpOf x) s = .next (commit (aluBytes 7#8 x).length x.cost (accCp (x.value s) s)) := by
  cases x <;> rfl

theorem exec_andOf (x : Source) (s : State) :
    exec (andOf x) s = .next (commit (aluBytes 4#8 x).length x.cost (accAnd (x.value s) s)) := by
  cases x <;> rfl

theorem exec_xorOf (x : Source) (s : State) :
    exec (xorOf x) s = .next (commit (aluBytes 5#8 x).length x.cost (accXor (x.value s) s)) := by
  cases x <;> rfl

theorem exec_orOf (x : Source) (s : State) :
    exec (orOf x) s = .next (commit (aluBytes 6#8 x).length x.cost (accOr (x.value s) s)) := by
  cases x <;> rfl

/-- The carry in is the flag C, or none. -/
theorem carryIn_eq (withCarry : Bool) (s : State) : carryIn withCarry s = (withCarry && s.fC).toNat := by
  cases withCarry <;> rfl

/-- The flags written, and then the commit. -/
theorem registerOnly_setFlags {z n h c : Option Bool} (hencode : encode i = bytes)
    (hexec : exec i s = .next (commit bytes.length cost (s.setFlags z n h c))) :
    RegisterOnly i bytes cost [] s (commit bytes.length cost (s.setFlags z n h c)) :=
  registerOnly_of_commit hencode hexec (outside_setFlags s z n h c) (fun q _ => State.setFlags_reg s z n h c q) rfl rfl rfl

/-- Settles O9: the one register and the flags written are those of the ALU's sum. -/
theorem addAccumulator : Obligations.AddAccumulator := fun withCarry x s =>
  ⟨_, _, _, registerOnly_setReg_setFlags (encode_addOf withCarry x) (exec_addOf withCarry x s),
    carryIn_eq withCarry s ▸ addsTo_aluAdd s.cpu.a (x.value s) (withCarry && s.fC),
    flagsAre_commit_setFlags _ _ _ _ _ _ _⟩

/-- Settles O10: the one register and the flags written are those of the ALU's difference. -/
theorem subAccumulator : Obligations.SubAccumulator := fun withCarry x s =>
  ⟨_, _, _, registerOnly_setReg_setFlags (encode_subOf withCarry x) (exec_subOf withCarry x s),
    carryIn_eq withCarry s ▸ subtractsTo_aluSub s.cpu.a (x.value s) (withCarry && s.fC),
    flagsAre_commit_setFlags _ _ _ _ _ _ _⟩

/-- Settles O11: the flags written are those of the ALU's difference, whose Z and C compare the operands. -/
theorem compareAccumulator : Obligations.CompareAccumulator := fun x s => by
  have hcarry : (aluSub s.cpu.a (x.value s) false).flags.c = decide (s.cpu.a.toNat < (x.value s).toNat) := aluSub_carry _ _ _
  refine ⟨_, _, _, _, registerOnly_setFlags (encode_cpOf x) (exec_cpOf x s), subtractsTo_aluSub _ _ false, ?_, hcarry⟩
  rw [← aluSub_zero, ← hcarry]
  exact flagsAre_commit_setFlags _ _ _ _ _ _ _

/-- Settles O12: the one register and the flags written are those of the ALU's three bitwise operations. -/
theorem logicAccumulator : Obligations.LogicAccumulator := fun x s =>
  ⟨_, _, _,
    ⟨registerOnly_setReg_setFlags (encode_andOf x) (exec_andOf x s), fun _ _ => BitVec.getLsbD_and,
      flagsAre_commit_setFlags _ _ _ _ _ _ _⟩,
    ⟨registerOnly_setReg_setFlags (encode_xorOf x) (exec_xorOf x s), fun _ _ => BitVec.getLsbD_xor,
      flagsAre_commit_setFlags _ _ _ _ _ _ _⟩,
    ⟨registerOnly_setReg_setFlags (encode_orOf x) (exec_orOf x s), fun _ _ => BitVec.getLsbD_or,
      flagsAre_commit_setFlags _ _ _ _ _ _ _⟩⟩

/-! ## INC and DEC -/

section Step

variable {n : Bool} {f : Flags} {v : Byte}

/-- INC and DEC leave C as it was before the result was written. -/
theorem flagsAre_commit_stepFlags (hf : t.cpu.f = s.cpu.f) (len cost : Nat) :
    FlagsAre (commit len cost (stepFlags n f t)) f.z n f.h (s.cpu.f.getLsbD 4) :=
  hf ▸ flagsAre_commit_setFlags t len cost (some f.z) (some n) (some f.h) none

theorem stepsRegister_of_exec {r : Reg8} (hencode : encode i = bytes)
    (hexec : exec i s = .next (commit bytes.length cost (stepFlags n f (s.setReg r v)))) :
    ∃ t, RegisterOnly i bytes cost [r] s t ∧ t.reg r = v ∧ FlagsAre t f.z n f.h (s.cpu.f.getLsbD 4) :=
  ⟨_, registerOnly_setReg_setFlags hencode hexec, by simp, flagsAre_commit_stepFlags (State.setReg_f s r v) _ _⟩

theorem stepsMemory_of_exec {a : Word} (hencode : encode i = bytes)
    (hexec : exec i s = .next (commit bytes.length cost (stepFlags n f (busWrite s a v)))) :
    ∃ t, Runs i bytes cost s t ∧ StoresByte a v [] s t ∧ FlagsAre t f.z n f.h (s.cpu.f.getLsbD 4) ∧
      t.cpu.sp = s.cpu.sp ∧ t.cpu.ime = s.cpu.ime :=
  ⟨_, runs_of_commit hencode hexec (by simp [stepFlags]) (by simp [stepFlags]),
    storesByte_of_outside ((outside_setFlags _ _ _ _ _).trans (outside_commit _ _ _)) (fun r _ => by simp [stepFlags]),
    flagsAre_commit_stepFlags (busWrite_f s a v) _ _, by simp [stepFlags], by simp [stepFlags]⟩

end Step

/-- Settles O13: the register steps to the ALU's sum or difference with 1. -/
theorem stepRegister : Obligations.StepRegister := by
  intro r s
  obtain ⟨t, hinc, hsum, hincFlags⟩ := stepsRegister_of_exec (s := s) (encode_incR r) rfl
  obtain ⟨u, hdec, hdiff, hdecFlags⟩ := stepsRegister_of_exec (s := s) (encode_decR r) rfl
  exact ⟨t, u, _, _, _, _, ⟨hinc, hsum ▸ addsTo_aluAdd (s.reg r) 1#8 false, hsum ▸ hincFlags⟩,
    ⟨hdec, hdiff ▸ subtractsTo_aluSub (s.reg r) 1#8 false, hdiff ▸ hdecFlags⟩⟩

/-- Settles O14: the byte at HL steps to the ALU's sum or difference with 1. -/
theorem stepMemory : Obligations.StepMemory := by
  intro s
  obtain ⟨t, hinc, hsum⟩ := stepsMemory_of_exec (i := .incHl) (s := s) rfl rfl
  obtain ⟨u, hdec, hdiff⟩ := stepsMemory_of_exec (i := .decHl) (s := s) rfl rfl
  exact ⟨t, u, _, _, _, _, _, _, ⟨hinc, addsTo_aluAdd (busRead s (hl s)) 1#8 false, hsum⟩,
    ⟨hdec, subtractsTo_aluSub (busRead s (hl s)) 1#8 false, hdiff⟩⟩

/-! ## DAA after a sum or a difference -/

/-- DAA adjusts A by the flags it finds, and its C is the high trigger. -/
theorem exec_daa_of_flagsAre {z n h c : Bool} (hflags : FlagsAre t z n h c) :
    ∃ u, exec .daa t = .next u ∧ u.cpu.a = (aluBcdAdjust t.cpu.a n h c).value ∧
      u.cpu.f.getLsbD 4 = bcdHigh t.cpu.a n c := by
  obtain ⟨-, rfl, rfl, rfl, -⟩ := hflags
  exact ⟨_, rfl, rfl, Flags.toByte_c _⟩

/-- Settles O16: DAA on the sum of O9 and on the difference of O10. -/
theorem decimalArithmetic : Obligations.DecimalArithmetic := by
  intro x y s hx hy ha
  obtain ⟨t, h, c, ⟨hadd, -⟩, hsum, hflags⟩ := addAccumulator false (.imm (packed y)) s
  obtain ⟨t', h', c', ⟨hsub, -⟩, hdiff, hflags'⟩ := subAccumulator false (.imm (packed y)) s
  obtain ⟨u, hu, hvalue, hcarry⟩ := exec_daa_of_flagsAre hflags
  obtain ⟨u', hu', hvalue', hcarry'⟩ := exec_daa_of_flagsAre hflags'
  rw [ha] at hsum hdiff
  exact ⟨t, u, t', u',
    ⟨hadd.completes, hu, hvalue.trans (aluBcdAdjust_of_addsTo hx hy hsum), hcarry.trans (bcdHigh_of_addsTo hx hy hsum)⟩,
    ⟨hsub.completes, hu', hvalue'.trans (aluBcdAdjust_of_subtractsTo hx hy hdiff),
      hcarry'.trans (bcdHigh_of_subtractsTo hx hy hdiff)⟩⟩

/-! ## CPL, SCF, CCF -/

/-- Settles O17: A complemented by CPL, and the flags written by each. -/
theorem flagOperations : Obligations.FlagOperations := fun _ =>
  ⟨_, _, _,
    ⟨registerOnly_setReg_setFlags rfl rfl, BitVec.toNat_not, flagsAre_commit_setFlags _ _ _ _ _ _ _⟩,
    ⟨registerOnly_setFlags rfl rfl, flagsAre_commit_setFlags _ _ _ _ _ _ _⟩,
    ⟨registerOnly_setFlags rfl rfl, flagsAre_commit_setFlags _ _ _ _ _ _ _⟩⟩

end Sys2Proof.Spec
end

section
/-! SUPPORT. The 16-bit arithmetic (44_arith16.md R250, R252, R253). -/

namespace Sys2Proof.Spec

open Sys2Proof.Machine

/-- An opcode byte with the field r16 (30_encoding.md R117). -/
theorem formOp_add_pair_code (n : Nat) (p : Pair) : formOp (n + 16 * p.code) = [BitVec.ofNat 8 n + r16 p] := by
  rw [formOp, BitVec.ofNat_add, ofNat_pair_code]

/-! ## ADD HL,rr -/

/-- C is the carry out of the whole sum (40_alu.md R144). -/
theorem aluAdd16High_carry (l r : Word) :
    l.toNat + r.toNat = (aluAdd16High l r).value.toNat + 0x10000 * (aluAdd16High l r).flags.c.toNat := by
  have hl := l.isLt
  have hr := r.isLt
  simp only [aluAdd16High, BitVec.toNat_ofNat, Bool.toNat, Bool.cond_decide]
  split <;> omega

/-- H is the carry out of the sum of the low 12 bits (40_alu.md R144). -/
theorem aluAdd16High_halfCarry (l r : Word) :
    l.toNat % 0x1000 + r.toNat % 0x1000 =
      (aluAdd16High l r).value.toNat % 0x1000 + 0x1000 * (aluAdd16High l r).flags.h.toNat := by
  simp only [aluAdd16High, BitVec.toNat_ofNat, Bool.toNat, Bool.cond_decide]
  split <;> omega

/-- ADD HL,rr writes the sum to HL, and then every flag but Z. -/
theorem addHlRr_spec (p : Pair) (s : State) :
    ∃ t, RegisterOnly (.addHlRr p) [0x09#8 + r16 p] 2 [.h, .l] s t ∧
      hl t = (aluAdd16High (hl s) (pairValue s p)).value ∧
      FlagsAre t (s.cpu.f.getLsbD 7) false (aluAdd16High (hl s) (pairValue s p)).flags.h
        (aluAdd16High (hl s) (pairValue s p)).flags.c := by
  rw [pairValue_eq]
  exact ⟨_, registerOnly_of_commit (formOp_add_pair_code 0x09 p) rfl ((outside_setHl s _).trans (outside_setFlags _ _ _ _ _))
      (fun r hr => (State.setFlags_reg _ _ _ _ _ r).trans (regsKept_setHl s _ r hr)) rfl rfl rfl,
    joinBytes_hi_lo _, flagsAre_commit_setFlags _ _ _ _ _ _ _⟩

/-- Settles O18: HL and the flags written are those of the ALU's sum. -/
theorem addPairToHl : Obligations.AddPairToHl := by
  intro p s
  obtain ⟨t, hruns, hsum, hflags⟩ := addHlRr_spec p s
  exact ⟨t, _, _, hruns, hsum ▸ aluAdd16High_carry _ _, hsum ▸ aluAdd16High_halfCarry _ _, hflags⟩

/-! ## INC rr and DEC rr -/

/-- Settles O19: each is a load of the pair with its next or its previous value, SP not moved before it. -/
theorem stepPair : Obligations.StepPair := by
  intro p s
  rw [pairValue_eq]
  obtain ⟨t, hinc⟩ := loadsPair_of_exec (i := .incRr p) (s := s) (w := s.cpu.sp) (formOp_add_pair_code 0x03 p) rfl
  obtain ⟨u, hdec⟩ := loadsPair_of_exec (i := .decRr p) (s := s) (w := s.cpu.sp) (formOp_add_pair_code 0x0B p) rfl
  exact ⟨t, u, hinc, hdec⟩

end Sys2Proof.Spec
end

section
/-! SUPPORT. The ALU's shifts, rotates and swap in natural numbers (40_alu.md R149 to R154). -/

namespace Sys2Proof.Machine

open Sys2Proof.Spec

/-! ## The places that a shift frees and the bits that it moves out -/

/-- A left shift with `x` put in at the low end: `v` with `x` appended, less its top bit. -/
theorem withBit_shiftLeft_toNat (v : Byte) (x : Bool) :
    (withBit (v <<< 1) 0 x).toNat = (2 * v.toNat + x.toNat) % 256 := by
  have happend : withBit (v <<< 1) 0 x = v.shiftConcat x := byte_ext fun i => by
    rw [withBit_getLsbD _ _ _ i.isLt, BitVec.getLsbD_shiftConcat]
    have hlt : i.val - 1 < 8 := by omega
    by_cases hi : i.val = 0 <;> simp [hi, BitVec.getLsbD_eq_getElem hlt]
  rw [happend, BitVec.toNat_shiftConcat, Nat.shiftLeft_eq, Nat.mul_comm]

/-- A right shift with `x` put in at the high end: `x` above the high seven bits of `v`. -/
theorem withBit_shiftRight_toNat (v : Byte) (x : Bool) :
    (withBit (v >>> 1) 7 x).toNat = v.toNat / 2 + 128 * x.toNat := by
  have hcons : withBit (v >>> 1) 7 x = BitVec.cons x (v.extractLsb' 1 7) := byte_ext fun i => by
    rw [withBit_getLsbD _ _ _ i.isLt, BitVec.getLsbD_cons]
    by_cases hi : i.val = 7
    · simp [hi]
    · have hlt : i.val < 7 := by omega
      simp [hi, hlt]
  have hv := v.isLt
  rw [hcons, BitVec.toNat_cons', BitVec.extractLsb'_toNat, Nat.shiftLeft_eq, Nat.shiftRight_eq_div_pow]
  omega

theorem lowBit_toNat (v : Byte) : (v.getLsbD 0).toNat = v.toNat % 2 := by
  rw [← BitVec.testBit_toNat, Nat.toNat_testBit, pow_zero, Nat.div_one]

theorem highBit_toNat (v : Byte) : (v.getLsbD 7).toNat = v.toNat / 128 := by
  have hv := v.isLt
  rw [← BitVec.testBit_toNat, Nat.toNat_testBit]
  omega

/-- The arithmetic shift puts in the top bit (40_alu.md R150). -/
theorem aluShiftRightArithmetic_value (v : Byte) :
    (aluShiftRightArithmetic v).value = withBit (v >>> 1) 7 (v.getLsbD 7) :=
  byte_ext fun i => by fin_cases i <;> simp [aluShiftRightArithmetic, shiftOut]

theorem aluSwap_value_toNat (v : Byte) : (aluSwap v).value.toNat = 16 * (v.toNat % 16) + v.toNat / 16 := by
  have hv := v.isLt
  have hhigh : v.toNat / 16 < 2 ^ 4 := by omega
  have hlow : (v.toNat % 2 ^ 4) <<< 4 < 2 ^ 8 := by omega
  rw [aluSwap, shiftOut, BitVec.toNat_or, BitVec.toNat_shiftLeft, BitVec.toNat_and, BitVec.toNat_ushiftRight,
    Nat.shiftRight_eq_div_pow, show (0x0F#8).toNat = 2 ^ 4 - 1 from rfl, Nat.and_two_pow_sub_one_eq_mod,
    Nat.mod_eq_of_lt hlow, ← Nat.shiftLeft_add_eq_or_of_lt hhigh, Nat.shiftLeft_eq, Nat.mul_comm]
  omega

/-! ## The eight operations -/

/-- The ALU's operation on `v` with the carry `c`. -/
def shiftAlu (v : Byte) (c : Bool) : Shift → AluOut 8
  | .rlc => aluRotate .left v
  | .rrc => aluRotate .right v
  | .rl => aluRotateCarry .left v c
  | .rr => aluRotateCarry .right v c
  | .sla => aluShiftLeft v
  | .sra => aluShiftRightArithmetic v
  | .swap => aluSwap v
  | .srl => aluShiftRightLogical v

theorem shiftAlu_flags (v : Byte) (c : Bool) (k : Shift) :
    (shiftAlu v c k).flags = ⟨(shiftAlu v c k).value == 0#8, false, false, k.out v⟩ := by
  cases k <;> rfl

theorem shiftAlu_value_toNat (v : Byte) (c : Bool) (k : Shift) :
    (shiftAlu v c k).value.toNat = k.result v.toNat c.toNat := by
  cases k with
  | rlc => exact (withBit_shiftLeft_toNat v _).trans (by rw [highBit_toNat, Shift.result])
  | rrc => exact (withBit_shiftRight_toNat v _).trans (by rw [lowBit_toNat, Shift.result])
  | rl => exact withBit_shiftLeft_toNat v c
  | rr => exact withBit_shiftRight_toNat v c
  | sla => rw [shiftAlu, aluShiftLeft, shiftOut, BitVec.toNat_shiftLeft, Nat.shiftLeft_eq, Nat.mul_comm, Shift.result]
  | sra => rw [shiftAlu, aluShiftRightArithmetic_value, withBit_shiftRight_toNat, highBit_toNat, Shift.result]
  | swap => exact aluSwap_value_toNat v
  | srl => exact BitVec.toNat_ushiftRight v 1

end Sys2Proof.Machine
end

section
/-! SUPPORT. The rotates, shifts and bit instructions (45_rotate_shift_bit.md R255 to R280). -/

namespace Sys2Proof.Spec

open Sys2Proof.Machine

variable {i : Instr} {bytes : List Byte} {cost : Nat} {s : State}

/-! ## Encodings -/

/-- A prefixed byte with the field r8 (30_encoding.md R116). -/
theorem formPfx_add_reg8_code (n : Nat) (r : Reg8) : formPfx (n + r.code) = [0xCB#8, BitVec.ofNat 8 n + r8 r] := by
  rw [formPfx, BitVec.ofNat_add, ofNat_reg8_code]
  rfl

/-- A prefixed byte with a bit index (30_encoding.md R115). -/
theorem ofNat_add_field3 (n : Nat) (b : Fin 8) : BitVec.ofNat 8 (n + 8 * b.val) = BitVec.ofNat 8 n + field3 b := by
  rw [BitVec.ofNat_add, BitVec.ofNat_mul, field3]

theorem formPfx_add_field3 (n : Nat) (b : Fin 8) : formPfx (n + 8 * b.val) = [0xCB#8, BitVec.ofNat 8 n + field3 b] := by
  rw [formPfx, ofNat_add_field3]
  rfl

theorem formPfx_add_field3_add_reg8_code (n : Nat) (b : Fin 8) (r : Reg8) :
    formPfx (n + 8 * b.val + r.code) = [0xCB#8, BitVec.ofNat 8 n + field3 b + r8 r] := by
  rw [formPfx_add_reg8_code, ofNat_add_field3]

theorem encode_onReg (k : Shift) (r : Reg8) : encode (k.onReg r) = [0xCB#8, 8#8 * k.code + r8 r] := by
  cases k <;> exact formPfx_add_reg8_code _ r

theorem encode_onHl (k : Shift) : encode k.onHl = [0xCB#8, 8#8 * k.code + 6#8] := by
  cases k <;> rfl

theorem encode_bitWriteR (x : Bool) (b : Fin 8) (r : Reg8) :
    encode (if x then .setBR b r else .resBR b r) = [0xCB#8, (if x then 0xC0#8 else 0x80#8) + field3 b + r8 r] := by
  cases x <;> exact formPfx_add_field3_add_reg8_code _ b r

theorem encode_bitWriteHl (x : Bool) (b : Fin 8) :
    encode (if x then .setBHl b else .resBHl b) = [0xCB#8, (if x then 0xC6#8 else 0x86#8) + field3 b] := by
  cases x <;> exact formPfx_add_field3 _ b

/-! ## Rotates and shifts -/

theorem exec_onReg (k : Shift) (r : Reg8) (s : State) :
    exec (k.onReg r) s = .next (commit 2 2 (shiftReg r (shiftAlu (s.reg r) s.fC k) s)) := by
  cases k <;> rfl

theorem exec_onHl (k : Shift) (s : State) :
    exec k.onHl s = .next (commit 2 4 (shiftHl (shiftAlu (busRead s (hl s)) s.fC k) s)) := by
  cases k <;> rfl

/-- F after a prefixed rotate or shift, from any state it is written in. -/
theorem flagsAre_commit_shiftFlags (v : Byte) (c : Bool) (k : Shift) (s : State) (len cost : Nat) :
    FlagsAre (commit len cost (shiftFlags (shiftAlu v c k).flags s)) ((shiftAlu v c k).value == 0#8) false false
      (k.out v) := by
  rw [shiftAlu_flags]
  exact flagsAre_commit_setFlags _ _ _ _ _ _ _

theorem accumulatorRotates_of_exec {k : Shift} {byte : Byte} (hencode : encode i = [byte])
    (hexec : exec i s = .next (commit 1 1 (accRotate (shiftAlu s.cpu.a s.fC k) s))) :
    ∃ t, RegisterOnly i [byte] 1 [.a] s t ∧ t.cpu.a.toNat = k.result s.cpu.a.toNat (s.cpu.f.getLsbD 4).toNat ∧
      FlagsAre t false false false (k.out s.cpu.a) := by
  rw [accRotate, shiftAlu_flags] at hexec
  exact ⟨_, registerOnly_setReg_setFlags hencode hexec, shiftAlu_value_toNat s.cpu.a s.fC k,
    flagsAre_commit_setFlags _ _ _ _ _ _ _⟩

/-- Settles O20: A and C written are those of the prefixed form's rotate, the other flags cleared. -/
theorem accumulatorRotates : Obligations.AccumulatorRotates := by
  intro k i byte s hmem
  simp only [List.mem_cons, List.not_mem_nil, or_false, Prod.mk.injEq] at hmem
  obtain ⟨rfl, rfl, rfl⟩ | ⟨rfl, rfl, rfl⟩ | ⟨rfl, rfl, rfl⟩ | ⟨rfl, rfl, rfl⟩ := hmem <;>
    exact accumulatorRotates_of_exec rfl rfl

/-- Settles O21: the register and the flags written are those of the ALU's operation. -/
theorem shiftRegister : Obligations.ShiftRegister := by
  intro k r s
  have hreg : (commit 2 2 (shiftReg r (shiftAlu (s.reg r) s.fC k) s)).reg r = (shiftAlu (s.reg r) s.fC k).value := by
    rw [commit_reg, shiftReg, shiftFlags, State.setFlags_reg, State.reg_setReg_self]
  refine ⟨commit 2 2 (shiftReg r (shiftAlu (s.reg r) s.fC k) s),
    registerOnly_setReg_setFlags (encode_onReg k r) (exec_onReg k r s), ?_, ?_⟩
  · rw [hreg]
    exact shiftAlu_value_toNat (s.reg r) s.fC k
  · rw [hreg]
    exact flagsAre_commit_shiftFlags _ _ _ _ _ _

/-- Settles O22: the byte stored and the flags written are those of the ALU's operation on the byte read. -/
theorem shiftMemory : Obligations.ShiftMemory := fun k s =>
  ⟨_, _, runs_of_commit (encode_onHl k) (exec_onHl k s) (busWrite_pc s _ _) (busWrite_now s _ _),
    shiftAlu_value_toNat (busRead s (hl s)) s.fC k,
    storesByte_of_outside ((outside_setFlags _ _ _ _ _).trans (outside_commit _ _ _))
      (fun r _ => (commit_reg _ _ _ r).trans (State.setFlags_reg _ _ _ _ _ r)),
    flagsAre_commit_shiftFlags _ _ _ _ _ _, busWrite_sp s _ _, busWrite_ime s _ _⟩

/-! ## Bits -/

/-- Settles O23: the flags written are those of the ALU's test, C as it was. -/
theorem bitTest : Obligations.BitTest := fun b r _ =>
  ⟨_, _,
    ⟨registerOnly_setFlags (formPfx_add_field3_add_reg8_code 0x40 b r) rfl, flagsAre_commit_setFlags _ _ _ _ _ _ _⟩,
    ⟨registerOnly_setFlags (formPfx_add_field3 0x46 b) rfl, flagsAre_commit_setFlags _ _ _ _ _ _ _⟩⟩

theorem exec_bitWriteR (x : Bool) (b : Fin 8) (r : Reg8) (s : State) :
    exec (if x then .setBR b r else .resBR b r) s = .next (commit 2 2 (s.setReg r (withBit (s.reg r) b.val x))) := by
  cases x <;> rfl

theorem exec_bitWriteHl (x : Bool) (b : Fin 8) (s : State) :
    exec (if x then .setBHl b else .resBHl b) s =
      .next (commit 2 4 (busWrite s (hl s) (withBit (busRead s (hl s)) b.val x))) := by
  cases x <;> rfl

/-- Settles O24: the register is written with its own byte, one bit set or cleared. -/
theorem bitWriteRegister : Obligations.BitWriteRegister := by
  intro x b r s
  refine ⟨_, registerOnly_setReg (encode_bitWriteR x b r) (exec_bitWriteR x b r s), State.setReg_f s r _, fun j hj => ?_⟩
  rw [commit_reg, State.reg_setReg_self, withBit_getLsbD _ _ _ hj]

/-- Settles O25: the byte at HL is stored back, one bit set or cleared. -/
theorem bitWriteMemory : Obligations.BitWriteMemory := by
  intro x b s
  obtain ⟨t, hruns, hstores⟩ := storesAt_of_exec (encode_bitWriteHl x b) (exec_bitWriteHl x b s)
  exact ⟨t, _, hruns, fun _ hj => withBit_getLsbD _ b.val x hj, hstores⟩

end Sys2Proof.Spec
end

section
/-! SUPPORT. Control transfer (46_control.md R281 to R292). -/

namespace Sys2Proof.Spec

open Sys2Proof.Machine

variable {i : Instr} {bytes : List Byte} {target back : Word} {cost : Nat} {cond : Cond} {ime : Bool} {s taken other : State}

/-! ## Encodings -/

/-- The field cc is the encoder's code of a condition (30_encoding.md R120). -/
@[simp] theorem ofNat_cond_code (cond : Cond) : BitVec.ofNat 8 (8 * cond.code) = cc cond := by
  cases cond <;> rfl

theorem formOp_add_cond_code (n : Nat) (cond : Cond) : formOp (n + 8 * cond.code) = [BitVec.ofNat 8 n + cc cond] := by
  rw [formOp, BitVec.ofNat_add, ofNat_cond_code]

theorem formN8_add_cond_code (n : Nat) (cond : Cond) (e : Byte) :
    formN8 (n + 8 * cond.code) e = [BitVec.ofNat 8 n + cc cond, e] := by
  rw [formN8, BitVec.ofNat_add, ofNat_cond_code]

theorem formN16_add_cond_code (n : Nat) (cond : Cond) (w : Word) :
    formN16 (n + 8 * cond.code) w = [BitVec.ofNat 8 n + cc cond, lo w, hi w] := by
  rw [formN16, BitVec.ofNat_add, ofNat_cond_code]

theorem formOp_add_field3 (n : Nat) (b : Fin 8) : formOp (n + 8 * b.val) = [BitVec.ofNat 8 n + field3 b] := by
  rw [formOp, ofNat_add_field3]

/-! ## Conditions -/

theorem cond_eq_true_iff (s : State) (cond : Cond) : s.cond cond = true ↔ holds s cond := by
  cases cond <;> simp [State.cond, State.fZ, State.fC, holds]

theorem exec_of_holds (hexec : exec i s = .next (if s.cond cond then taken else other)) (h : holds s cond) :
    exec i s = .next taken := by
  rw [hexec, if_pos ((cond_eq_true_iff s cond).mpr h)]

theorem exec_of_not_holds (hexec : exec i s = .next (if s.cond cond then taken else other)) (h : ¬holds s cond) :
    exec i s = .next other := by
  rw [hexec, if_neg (mt (cond_eq_true_iff s cond).mp h)]

/-! ## Jumps -/

/-- A jump, or a commit, which is the jump to the next instruction. -/
theorem jumpsTo_of_exec (hencode : encode i = bytes) (hexec : exec i s = .next (jumpTo target cost s)) :
    JumpsTo i bytes target cost s :=
  ⟨_, ⟨hencode, hexec, rfl, rfl⟩, outside_jumpTo s target cost, fun r _ => jumpTo_reg s target cost r, rfl, rfl, rfl⟩

/-- Settles O26: each is one jump. -/
theorem jumps : Obligations.Jumps := fun _ _ _ =>
  ⟨jumpsTo_of_exec rfl rfl, jumpsTo_of_exec rfl rfl, jumpsTo_of_exec rfl rfl⟩

/-- Settles O27: a jump to the target when the condition holds, and to the next instruction when it does not. -/
theorem conditionalJumps : Obligations.ConditionalJumps := by
  intro cond w e s
  have hjp : encode (.jpCcN16 cond w) = [0xC2#8 + cc cond, lo w, hi w] := formN16_add_cond_code 0xC2 cond w
  have hjr : encode (.jrCcE8 cond e) = [0x20#8 + cc cond, e] := formN8_add_cond_code 0x20 cond e
  exact ⟨fun h => ⟨jumpsTo_of_exec hjp (exec_of_holds rfl h), jumpsTo_of_exec hjr (exec_of_holds rfl h)⟩,
    fun h => ⟨jumpsTo_of_exec hjp (exec_of_not_holds rfl h), jumpsTo_of_exec hjr (exec_of_not_holds rfl h)⟩⟩

/-! ## Calls -/

/-- The return address pushed, and then the jump. -/
theorem callsTo_of_exec (hencode : encode i = bytes) (hexec : exec i s = .next (jumpTo target cost (push16 back s))) :
    CallsTo i bytes target back cost s :=
  ⟨_, ⟨hencode, hexec, rfl, by simp⟩, pushes_jumpTo back s target cost, by simp, by simp⟩

/-- Settles O28: each call is a push and a jump, and a CALL cc not taken a commit. -/
theorem calls : Obligations.Calls := by
  intro cond w k s
  have hcall : encode (.callCcN16 cond w) = [0xC4#8 + cc cond, lo w, hi w] := formN16_add_cond_code 0xC4 cond w
  exact ⟨callsTo_of_exec rfl rfl, callsTo_of_exec (formOp_add_field3 0xC7 k) rfl,
    fun h => callsTo_of_exec hcall (exec_of_holds rfl h), fun h => jumpsTo_of_exec hcall (exec_of_not_holds rfl h)⟩

/-! ## Returns -/

/-- A pop, IME written, which may be with its own value, and then the jump to the word popped. -/
theorem returns_of_exec (hencode : encode i = bytes)
    (hexec : exec i s = .next (jumpTo (stacked s) cost ((popState s).setIme ime))) : Returns i bytes ime cost s :=
  ⟨_, ⟨hencode, hexec, rfl, rfl⟩, .of_cpu rfl rfl, fun r _ => by simp [popState], rfl, rfl, rfl⟩

/-- Settles O29: each return is a pop and a jump, RETI's with IME set, and a RET cc not taken a commit. -/
theorem returnInstructions : Obligations.ReturnInstructions := by
  intro cond s
  have hret : encode (.retCc cond) = [0xC0#8 + cc cond] := formOp_add_cond_code 0xC0 cond
  exact ⟨returns_of_exec rfl rfl, returns_of_exec rfl rfl, fun h => returns_of_exec hret (exec_of_holds rfl h),
    fun h => jumpsTo_of_exec hret (exec_of_not_holds rfl h)⟩

end Sys2Proof.Spec
end

section
/-! SUPPORT. The system instructions and the prefix marker (47_system.md R300 to R306). -/

namespace Sys2Proof.Spec

open Sys2Proof.Machine

/-! ## The prefix marker -/

/-- An entry of the prefixed table is encoded as the prefix marker and its own byte (30_encoding.md R111, R122). -/
theorem encode_decodePrefixed (b : Byte) : encode (decodePrefixed b) = [0xCB#8, b] := by
  have hpre : encode (decodePrefixed b) <+: [0xCB#8, b, 0#8] := (decodePrefixed_isEntry b 0#8).encode_isPrefix (by decide)
  rw [List.prefix_iff_eq_take, encode_length, decodePrefixed_length] at hpre
  exact hpre

/-- No bytes decode to the prefix marker, which is not a whole instruction (30_encoding.md R111). -/
theorem decodeBytes_ne_pfx (b n1 n2 : Byte) : decodeBytes b n1 n2 ≠ .pfx := fun h => by
  have hwf := (decodeBytes_isEntry b n1 n2).wellFormed
  rw [h] at hwf
  cases hwf

theorem exec_shiftRegInstr (y : Fin 8) (r : Reg8) (s : State) : exec (shiftRegInstr y r) s = execShiftReg y r s := by
  fin_cases y <;> rfl

theorem exec_shiftHlInstr (y : Fin 8) (s : State) : exec (shiftHlInstr y) s = execShiftHl y s := by
  fin_cases y <;> rfl

/-- The prefixed table as the decoder reads it and as PREFIX executes it: field x picks the group, field z the operand. -/
theorem exec_decodePrefixed (b : Byte) (s : State) : exec (decodePrefixed b) s = execPrefixedByte b s := by
  unfold decodePrefixed execPrefixedByte
  generalize fieldX b = x, reg8OfField (fieldZ b) = operand
  match x, operand with
  | 0, some r => exact exec_shiftRegInstr _ r s
  | 0, none => exact exec_shiftHlInstr _ s
  | 1, some _ | 1, none | 2, some _ | 2, none | 3, some _ | 3, none => rfl

/-- Settles O33: the prefixed table's entries are whole instructions, and PREFIX executes the entry that the byte after PC
decodes to. -/
theorem prefixSelectsSecondTable : Obligations.PrefixSelectsSecondTable := by
  refine ⟨fun b n => ⟨rfl, decodePrefixed_length b, encode_decodePrefixed b⟩, decodeBytes_ne_pfx, fun s => ?_⟩
  obtain ⟨t, hexec, -⟩ := exec_acts .pfx s
  exact ⟨t, hexec, (exec_decodePrefixed _ s).trans hexec⟩

/-! ## NOP, DI, EI, HALT -/

/-- EI and DI are each one write of IME and the commit. -/
theorem exec_imeWrite (x : Bool) (s : State) : exec (if x then .ei else .di) s = .next (commit 1 1 (s.setIme x)) := by
  cases x <;> rfl

theorem encode_imeWrite (x : Bool) : encode (if x then .ei else .di) = [if x then 0xFB#8 else 0xF3#8] := by
  cases x <;> rfl

/-- Settles O31: NOP is the commit alone, DI and EI write IME before it, HALT writes PC and the watermark. -/
theorem nopDiEiHalt : Obligations.NopDiEiHalt := by
  refine fun s => ⟨jumpsTo_of_exec rfl rfl, fun x => ⟨commit 1 1 (s.setIme x), ?_⟩,
    rfl, (s.setPc (nextPc 1 s)).setNext none, ?_⟩
  · have hregs : RegsKept [] s (commit 1 1 (s.setIme x)) := fun r _ => by rw [commit_reg, State.setIme_reg]
    exact ⟨runs_of_commit (encode_imeWrite x) (exec_imeWrite x s) rfl rfl, .of_cpu rfl rfl, hregs, rfl, rfl, rfl⟩
  · have hregs : RegsKept [] s ((s.setPc (nextPc 1 s)).setNext none) :=
      fun r _ => by rw [State.setNext_reg, State.setPc_reg]
    exact ⟨rfl, rfl, rfl, .of_cpu rfl rfl, hregs, rfl, rfl, rfl⟩

/-! ## STOP and the unassigned bytes -/

/-- Settles O32: by the decoder's table, each instruction of these raises its Fatal and does nothing else. -/
theorem stopAndIllegalOpcodes : Obligations.StopAndIllegalOpcodes := by
  refine fun s n n' => ⟨⟨rfl, rfl⟩, fun x hx => ?_⟩
  unfold unassigned at hx
  fin_cases hx <;> exact ⟨rfl, rfl, rfl⟩

end Sys2Proof.Spec
end

section
/-! SUPPORT. The Timer by its edge rule: a tick, the writes to its registers, and the periods that many ticks count
(48_timer.md R320 to R330). -/

namespace Sys2Proof.Spec

open Sys2Proof.Machine

/-! ## The edge rule -/

theorem timerBitIndex_eq (tac : Byte) : timerBitIndex tac = selectedBit tac := by
  revert tac
  decide +kernel

theorem timerSignal_eq (t : Timer) : timerSignal t = edgeInput t.tac t.counter := by
  rw [timerSignal, edgeInput, timerBitIndex_eq]

/-- A change of TAC or of the counter, bracketed by the edge detector (48_timer.md R323, R324). -/
theorem timerChange_eq (s : State) (tac : Byte) (counter : Word) :
    timerChange { s.timer with tac := tac, counter := counter } s = afterEdge s tac counter := by
  unfold timerChange afterEdge
  rw [timerSignal_eq, timerSignal_eq]
  by_cases hedge : edgeInput s.timer.tac s.timer.counter = true ∧ edgeInput tac counter = false
  · obtain ⟨hold, hnew⟩ := hedge
    rw [if_pos (by rw [hold, hnew]; rfl), if_pos ⟨hold, hnew⟩]
    rfl
  · rw [if_neg (by simpa using hedge), if_neg hedge]

theorem timerTick_eq (s : State) : timerTick s = afterEdge s s.timer.tac (s.timer.counter + 4#16) :=
  timerChange_eq s _ _

/-- On the default platform a register of the core is no address of the work RAM, so nothing there gets the write. -/
theorem platformWrite_coreRegister (s : State) {a : Word} (v : Byte) (ha : coreRegister a)
    (hp : s.platform = defaultPlatform) : platformWrite a v s = s := by
  have hnone : workRamCell a = none := workRamCell_none a (by unfold coreRegister at ha; omega)
  rw [platformWrite_default a v s hp, hnone]

/-- Settles O52: the tick and the writes to DIV and TAC are changes under the edge rule, those to TIMA and TMA are stores. -/
theorem timerTickAndWrites : Obligations.TimerTickAndWrites := fun s v =>
  ⟨timerTick_eq s, by rw [busWrite_div, ← timerChange_eq], by rw [busWrite_tac, ← timerChange_eq], busWrite_tima s v,
    busWrite_tma s v, fun _ ha hp => platformWrite_coreRegister s v ha hp⟩

/-! ## Counting periods -/

/-- The edge detector's input falls from one value of the counter to the next. -/
abbrev falls (tac : Byte) (c c' : Word) : Prop := edgeInput tac c = true ∧ edgeInput tac c' = false

/-- What a change that does not overflow TIMA leaves. -/
theorem afterEdge_counts {s : State} {tac : Byte} {c : Word}
    (h : falls s.timer.tac s.timer.counter c → s.timer.tima ≠ 0xFF#8) (htac : tac = s.timer.tac) :
    (afterEdge s tac c).timer.tima.toNat =
        s.timer.tima.toNat + (if falls s.timer.tac s.timer.counter c then 1 else 0) ∧
      (afterEdge s tac c).timer.counter = c ∧ (afterEdge s tac c).timer.tac = tac ∧
      (afterEdge s tac c).cpu.ifReg = s.cpu.ifReg := by
  subst htac
  unfold afterEdge
  by_cases hfall : falls s.timer.tac s.timer.counter c
  · have htima : s.timer.tima.toNat ≠ 255 := fun e => h hfall (BitVec.eq_of_toNat_eq e)
    rw [if_pos hfall, if_pos hfall, if_neg (h hfall)]
    refine ⟨?_, rfl, rfl, rfl⟩
    show (s.timer.tima + 1#8).toNat = _
    bv_omega
  · rw [if_neg hfall, if_neg hfall]
    exact ⟨rfl, rfl, rfl, rfl⟩

/-- A bit of the counter, which wraps at 2^16, of the time that it counts. -/
theorem getLsbD_ofNat_eq (x k : Nat) (hk : k < 16) : (BitVec.ofNat 16 x).getLsbD k = decide (x / 2 ^ k % 2 = 1) := by
  rw [BitVec.getLsbD_ofNat, Nat.testBit_eq_decide_div_mod_eq]
  simp [hk]

theorem selectedBit_bounds (tac : Byte) : 2 ≤ selectedBit tac ∧ selectedBit tac < 16 := by
  unfold selectedBit
  split <;> decide

/-- Bit `k` of a time that goes up by 4, which is at most 2^k, falls exactly when the time passes a multiple of 2^(k+1). -/
theorem div_two_pow_succ_add_four {k : Nat} (hk : 2 ≤ k) (x : Nat) :
    (x + 4) / 2 ^ (k + 1) =
      x / 2 ^ (k + 1) + if x / 2 ^ k % 2 = 1 ∧ ¬(x + 4) / 2 ^ k % 2 = 1 then 1 else 0 := by
  have hhalf : ∀ y, y / 2 ^ (k + 1) = y / 2 ^ k / 2 := fun y => by rw [Nat.pow_succ, Nat.div_div_eq_div_mul]
  have hfour : 2 ^ 2 ≤ 2 ^ k := Nat.pow_le_pow_right (by decide) hk
  have hge : x / 2 ^ k ≤ (x + 4) / 2 ^ k := Nat.div_le_div_right (Nat.le_add_right _ _)
  have hle : (x + 4) / 2 ^ k ≤ x / 2 ^ k + 1 :=
    calc (x + 4) / 2 ^ k ≤ (x + 2 ^ k) / 2 ^ k := Nat.div_le_div_right (Nat.add_le_add_left hfour x)
      _ = x / 2 ^ k + 1 := Nat.add_div_right x (Nat.two_pow_pos k)
  rw [hhalf, hhalf]
  split <;> omega

/-- With the Timer enabled the selected bit falls in a tick exactly when the counter passes a multiple of the period. -/
theorem div_period_add_four {tac : Byte} (henabled : tac.getLsbD 2 = true) (x : Nat) :
    (x + 4) / 2 ^ (selectedBit tac + 1) =
      x / 2 ^ (selectedBit tac + 1) +
        if falls tac (BitVec.ofNat 16 x) (BitVec.ofNat 16 (x + 4)) then 1 else 0 := by
  obtain ⟨hlow, hhigh⟩ := selectedBit_bounds tac
  simp only [falls, edgeInput, henabled, Bool.true_and, getLsbD_ofNat_eq _ _ hhigh, decide_eq_true_iff,
    decide_eq_false_iff_not]
  exact div_two_pow_succ_add_four hlow x

/-- How many multiples of the period the counter passes in `n` ticks. -/
def periodsPassed (t : Timer) (n : Nat) : Nat :=
  (t.counter.toNat + 4 * n) / 2 ^ (selectedBit t.tac + 1) - t.counter.toNat / 2 ^ (selectedBit t.tac + 1)

/-- By induction on the number of ticks: one more tick passes one more multiple of the period, or none. -/
theorem timerTick_iterate {s : State} (henabled : s.timer.tac.getLsbD 2 = true) (n : Nat)
    (hbound : s.timer.tima.toNat + periodsPassed s.timer n ≤ 255) :
    (timerTick^[n] s).timer.tima.toNat = s.timer.tima.toNat + periodsPassed s.timer n ∧
      (timerTick^[n] s).timer.counter = BitVec.ofNat 16 (s.timer.counter.toNat + 4 * n) ∧
      (timerTick^[n] s).timer.tac = s.timer.tac ∧ (timerTick^[n] s).cpu.ifReg = s.cpu.ifReg := by
  unfold periodsPassed at *
  induction n with
  | zero => simp
  | succ n ih =>
    have hstep := div_period_add_four henabled (s.timer.counter.toNat + 4 * n)
    have hmono : s.timer.counter.toNat / 2 ^ (selectedBit s.timer.tac + 1) ≤
        (s.timer.counter.toNat + 4 * n) / 2 ^ (selectedBit s.timer.tac + 1) := Nat.div_le_div_right (Nat.le_add_right _ _)
    rw [show s.timer.counter.toNat + 4 * (n + 1) = s.timer.counter.toNat + 4 * n + 4 by ring] at hbound ⊢
    generalize 2 ^ (selectedBit s.timer.tac + 1) = period at *
    obtain ⟨htima, hcounter, htac, hif⟩ := ih (by omega)
    rw [Function.iterate_succ_apply', timerTick_eq]
    generalize timerTick^[n] s = u at *
    have hnext : u.timer.counter + 4#16 = BitVec.ofNat 16 (s.timer.counter.toNat + 4 * n + 4) := by
      rw [hcounter, BitVec.ofNat_add (s.timer.counter.toNat + 4 * n)]
    rw [← htac, ← hcounter, ← hnext] at hstep
    have hroom : falls u.timer.tac u.timer.counter (u.timer.counter + 4#16) → u.timer.tima ≠ 0xFF#8 := by
      intro hfall htop
      rw [if_pos hfall] at hstep
      rw [htop] at htima
      simp only [BitVec.toNat_ofNat] at htima
      omega
    obtain ⟨htima', hcounter', htac', hif'⟩ := afterEdge_counts hroom rfl
    exact ⟨by omega, hcounter'.trans hnext, htac'.trans htac, hif'.trans hif⟩

/-- Settles O53: the count of `timerTick_iterate`, the counter's sum taken modulo 2^16. -/
theorem timaCountsPeriods : Obligations.TimaCountsPeriods := by
  rintro n s period henabled rfl hbound
  obtain ⟨htima, hcounter, -, hif⟩ := timerTick_iterate henabled n hbound
  exact ⟨htima, hcounter.trans (by rw [BitVec.ofNat_add, BitVec.ofNat_toNat, BitVec.setWidth_eq]), hif⟩

end Sys2Proof.Spec
end

section
/-! SUPPORT. The display's acts in the statements' vocabulary: the comparison, the mode entry, the power-down, and the mode
sequencer by line and position (49_display.md R343, R359, R361, R362, R364). -/

namespace Sys2Proof.Spec

open Sys2Proof.Machine

variable {s : State} {line pos : Nat}

/-! ## The comparison and the mode entry -/

theorem lcdCompare_eq (s : State) : lcdCompare s = compared s := by
  unfold compared
  rcases lcdCompare_spec s with ⟨hly, hbit, e⟩ | ⟨hly, hbit, e⟩ | ⟨hly, e⟩ <;> rw [e]
  · rw [if_pos hly, hbit]
    rfl
  · rw [if_pos hly, hbit]
    rfl
  · rw [if_neg hly]
    rfl

theorem lcdSetLy_eq (v : Byte) (s : State) : lcdSetLy v s = compared { s with lcd := { s.lcd with ly := v } } :=
  lcdCompare_eq _

/-- The mode field takes the place of STAT's two low bits (10_state.md R42). -/
theorem withMode_getLsbD (stat : Byte) (m : Pixel) {i : Nat} (hi : i < 8) :
    (withMode stat m).getLsbD i = if i < 2 then m.getLsbD i else stat.getLsbD i := by
  rw [withMode, BitVec.getLsbD_append]
  split
  · rfl
  · rw [BitVec.getLsbD_extractLsb', decide_eq_true (by omega), Bool.true_and, Nat.add_sub_cancel' (by omega)]

theorem withMode_eq (stat : Byte) (m : Pixel) : withMode stat m = (stat &&& 0xFC#8) ||| m.setWidth 8 := by
  have hmask : ∀ i < 8, (0xFC#8).getLsbD i = decide (2 ≤ i) := by decide
  refine BitVec.eq_of_getLsbD_eq fun i hi => ?_
  rw [withMode_getLsbD _ _ hi, BitVec.getLsbD_or, BitVec.getLsbD_and, hmask i hi, BitVec.getLsbD_setWidth,
    decide_eq_true hi, Bool.true_and]
  split
  · rw [decide_eq_false (by omega), Bool.and_false, Bool.false_or]
  · rw [decide_eq_true (by omega), Bool.and_true, BitVec.getLsbD_of_ge m i (by omega), Bool.or_false]

/-- The enable bits of modes 0, 1 and 2 are STAT bits 3, 4 and 5; mode 3 has none (49_display.md R362). -/
theorem lcdSetMode_eq (m : Pixel) (s : State) :
    lcdSetMode m s = entered (m.setWidth 8) (if m = 3#2 then none else some (3 + m.toNat)) s := by
  unfold lcdSetMode entered
  rw [← withMode_eq]
  by_cases hm : m = 3#2
  · rw [if_pos hm, if_neg fun h => h.1 hm]
    rfl
  · rw [if_neg hm, Option.any_some]
    cases hbit : s.lcd.stat.getLsbD (3 + m.toNat) with
    | false => rw [if_neg fun h => Bool.false_ne_true h.2, if_neg Bool.false_ne_true]
    | true =>
      rw [if_pos ⟨hm, rfl⟩, if_pos rfl]
      rfl

/-- A power-down is mode 0, LY 0 with its comparison, and the watermark suspended (49_display.md R364). -/
theorem lcdPowerDown_compared (s : State) :
    lcdPowerDown s =
      { compared { s with lcd := { s.lcd with stat := s.lcd.stat &&& 0xFC#8, ly := 0#8 } } with
        lcd :=
          { (compared { s with lcd := { s.lcd with stat := s.lcd.stat &&& 0xFC#8, ly := 0#8 } }).lcd with
            next := none } } := by
  have hmode : withMode s.lcd.stat 0#2 = s.lcd.stat &&& 0xFC#8 := (withMode_eq _ _).trans BitVec.or_zero
  rw [lcdPowerDown, lcdSetLy_eq, hmode]

/-- A write to the register at offset `i` of the display's bank. -/
theorem busWrite_bank (i : Nat) (s : State) (v : Byte) {a : Word} {u : State} (ha : a.toNat = 0xFF40 + i) (hi : i < 12)
    (hu : lcdRegWrite i v s = u) : busWrite s a v = platformWrite a v u := by
  rw [busWrite_lcdReg s a v (by omega), ha, Nat.add_sub_cancel_left, hu]

/-- Settles O54: each write is the register's own effect, and the platform's part after it. -/
theorem displayWrites : Obligations.DisplayWrites := by
  intro s v
  refine ⟨busWrite_bank 2 s v rfl (by decide) rfl, busWrite_bank 3 s v rfl (by decide) rfl,
    busWrite_bank 7 s v rfl (by decide) rfl, busWrite_bank 8 s v rfl (by decide) rfl,
    busWrite_bank 9 s v rfl (by decide) rfl, busWrite_bank 10 s v rfl (by decide) rfl,
    busWrite_bank 11 s v rfl (by decide) rfl, busWrite_bank 1 s v rfl (by decide) rfl,
    busWrite_bank 4 s v rfl (by decide) rfl, busWrite_bank 5 s v rfl (by decide) (lcdCompare_eq _),
    busWrite_bank 6 s v rfl (by decide) rfl, fun hkept => busWrite_bank 0 s v rfl (by decide) ?_,
    fun hold hnew => busWrite_bank 0 s v rfl (by decide) ?_⟩
  · show lcdWriteLcdc v s = _
    exact if_neg (by simpa using hkept)
  · show lcdWriteLcdc v s = _
    exact (if_pos (by rw [hold, hnew]; rfl)).trans (lcdPowerDown_compared _)

/-! ## The sequencer -/

theorem lcdSequence_of_due (h : s.lcd.next = some s.now) : lcdSequence s = lcdStep s := if_pos h

theorem frameTime_eq (h : s.lcd.onCycle ≤ s.now) : frameTime s = (s.now - s.lcd.onCycle) % 17556 := by
  show (((s.now : Int) - s.lcd.onCycle) % 17556).toNat = _
  omega

/-- The sequencer by line and position counted from power-up. -/
theorem lcdStep_eq (hon : s.lcd.onCycle ≤ s.now) (hline : line = (s.now - s.lcd.onCycle) % 17556 / 114)
    (hpos : pos = (s.now - s.lcd.onCycle) % 17556 % 114) :
    lcdStep s =
      if line < 144 then
        if pos = 0 then lcdLineStart line s else if pos = 20 then lcdTransferStart line s else lcdHblankStart s
      else lcdVblankLine line s := by
  unfold lcdStep
  rw [frameTime_eq hon, hline, hpos]
  rfl

theorem lcdLineStart_zero (s : State) :
    lcdLineStart 0 s =
      lcdWait 20 (entered 2#8 (some 5) (compared
        { s with lcd := { s.lcd with ly := 0#8, winLine := 0, frameNext := List.replicate 144 none } })) := by
  rw [lcdLineStart, lcdSetMode_eq, lcdSetLy_eq]
  rfl

theorem lcdLineStart_pos (hline : 0 < line) (s : State) :
    lcdLineStart line s =
      lcdWait 20 (entered 2#8 (some 5) (compared { s with lcd := { s.lcd with ly := BitVec.ofNat 8 line } })) := by
  rw [lcdLineStart, lcdSetMode_eq, lcdSetLy_eq, if_neg hline.ne']
  rfl

theorem lcdTransferStart_eq (line : Nat) (s : State) :
    lcdTransferStart line s = lcdWait 43 (lcdComposeInto line (entered 3#8 none s)) := by
  rw [lcdTransferStart, lcdSetMode_eq]
  rfl

/-- The compositor does not look at the mode field. -/
theorem composeLine_stat (r : Lcd) (stat : Byte) (m : Memory) (line : Nat) :
    composeLine { r with stat := stat } m line = composeLine r m line := by
  have hpass : ∀ x sprites, passPixel { r with stat := stat } m line x sprites = passPixel r m line x sprites := by
    intro x sprites
    induction sprites with
    | nil => rfl
    | cons sp rest ih => simp only [passPixel, ih]; rfl
  unfold composeLine
  refine List.map_congr_left fun x _ => ?_
  unfold linePixel
  rw [hpass, hpass]
  rfl

theorem compared_frameNext (s : State) : (compared s).lcd.frameNext = s.lcd.frameNext := by
  unfold compared
  split <;> rfl

theorem lcdVblankLine_144 (s : State) :
    lcdVblankLine 144 s =
      lcdWait 114 (requestInterrupt 0
        { entered 1#8 (some 4) (compared { s with lcd := { s.lcd with ly := 144#8 } }) with
          lcd :=
            { (entered 1#8 (some 4) (compared { s with lcd := { s.lcd with ly := 144#8 } })).lcd with
              frameCur := publish s.lcd.frameNext } }) := by
  rw [lcdVblankLine, lcdSetLy_eq, if_pos rfl, lcdVblankEntry, lcdSetMode_eq,
    ← compared_frameNext { s with lcd := { s.lcd with ly := 144#8 } }]
  rfl

theorem lcdVblankLine_later (h : 144 < line) (s : State) :
    lcdVblankLine line s = lcdWait 114 (compared { s with lcd := { s.lcd with ly := BitVec.ofNat 8 line } }) := by
  rw [lcdVblankLine, lcdSetLy_eq, if_neg h.ne']
  rfl

/-- Settles O55: the sequencer's branch for the line and the position, and what that branch does. -/
theorem sequencerStep : Obligations.SequencerStep := by
  refine ⟨fun s h => if_neg h, fun s line pos hdue hon hline hpos => ?_⟩
  rw [lcdSequence_of_due hdue, lcdStep_eq hon hline hpos]
  refine ⟨?frameStart, ?lineStart, ?transfer, ?hblank, ?vblank, ?vblankLine⟩
  case frameStart =>
    rintro rfl rfl
    exact lcdLineStart_zero s
  case lineStart =>
    rintro h0 h rfl
    rw [if_pos h]
    exact lcdLineStart_pos h0 s
  case transfer =>
    rintro h rfl
    rw [if_pos h, if_neg (by decide), if_pos rfl, lcdTransferStart_eq, lcdComposeInto,
      show composeLine (entered 3#8 none s).lcd (entered 3#8 none s).mem line = composeLine s.lcd s.mem line from
        composeLine_stat _ _ _ _]
    rfl
  case hblank =>
    rintro h rfl
    rw [if_pos h, if_neg (by decide), if_neg (by decide), lcdHblankStart, lcdSetMode_eq]
    rfl
  case vblank =>
    rintro rfl rfl
    rw [if_neg (by decide), lcdVblankLine_144]
    rfl
  case vblankLine =>
    rintro h rfl
    rw [if_neg (by omega)]
    exact lcdVblankLine_later h s

end Sys2Proof.Spec
end

section
/-! SUPPORT. Everything that each act of the sequencer leaves, power-up, and the sprite DMA engine (49_display.md R360, R361,
R363, R365). -/

namespace Sys2Proof.Machine

open Sys2Proof.Spec

/-! ## The mode field -/

theorem withMode_mode (stat : Byte) (m : Pixel) : (withMode stat m).extractLsb' 0 2 = m := by
  ext i hi
  rw [BitVec.getElem_extractLsb', Nat.zero_add, withMode_getLsbD _ _ (by omega), if_pos hi, BitVec.getLsbD_eq_getElem hi]

/-- The comparison's bit is not in the mode field. -/
theorem withBit_two_mode (stat : Byte) (x : Bool) : (withBit stat 2 x).extractLsb' 0 2 = stat.extractLsb' 0 2 := by
  ext i hi
  rw [BitVec.getElem_extractLsb', BitVec.getElem_extractLsb', withBit_getLsbD _ _ _ (by omega), if_neg (by omega)]

theorem lcdCompare_mode (s : State) : (lcdCompare s).lcd.stat.extractLsb' 0 2 = s.lcd.stat.extractLsb' 0 2 := by
  rcases lcdCompare_spec s with ⟨-, -, e⟩ | ⟨-, -, e⟩ | ⟨-, e⟩ <;> rw [e] <;> exact withBit_two_mode _ _

/-! ## The acts of the sequencer -/

/-- Everything that storing LY does. -/
theorem lcdSetLy_spec (v : Byte) (s : State) :
    ∃ flags stat : Byte, stat.extractLsb' 0 2 = s.lcd.stat.extractLsb' 0 2 ∧
      lcdSetLy v s =
        { s with cpu := { s.cpu with ifReg := flags }, lcd := { s.lcd with ly := v, stat := stat } } :=
  ⟨_, _, lcdCompare_mode { s with lcd := { s.lcd with ly := v } }, lcdSetLy_frame v s⟩

/-- Everything that a mode entry does. -/
theorem lcdSetMode_spec (m : Pixel) (s : State) :
    ∃ flags stat : Byte, stat.extractLsb' 0 2 = m ∧
      lcdSetMode m s = { s with cpu := { s.cpu with ifReg := flags }, lcd := { s.lcd with stat := stat } } :=
  ⟨_, _, withMode_mode s.lcd.stat m, lcdSetMode_frame m s⟩

/-- Everything the start of a visible line does. -/
theorem lcdLineStart_spec (line : Nat) (s : State) :
    ∃ flags stat : Byte, stat.extractLsb' 0 2 = 2#2 ∧
      lcdLineStart line s =
        { s with
          cpu := { s.cpu with ifReg := flags }
          lcd :=
            { s.lcd with
              ly := BitVec.ofNat 8 line
              stat := stat
              winLine := if line = 0 then 0 else s.lcd.winLine
              frameNext := if line = 0 then List.replicate 144 none else s.lcd.frameNext
              next := some (s.now + 20) } } := by
  have hframe : (if line = 0 then lcdNewFrame s else s) =
      { s with
        lcd :=
          { s.lcd with
            winLine := if line = 0 then 0 else s.lcd.winLine
            frameNext := if line = 0 then List.replicate 144 none else s.lcd.frameNext } } := by
    split <;> rfl
  obtain ⟨_, _, -, hly⟩ := lcdSetLy_spec (BitVec.ofNat 8 line) (if line = 0 then lcdNewFrame s else s)
  obtain ⟨flags, stat, hmode, hset⟩ :=
    lcdSetMode_spec 2#2 (lcdSetLy (BitVec.ofNat 8 line) (if line = 0 then lcdNewFrame s else s))
  refine ⟨flags, stat, hmode, ?_⟩
  rw [lcdLineStart, hset, hly, hframe]
  rfl

/-- Everything the start of pixel transfer does. -/
theorem lcdTransferStart_spec (line : Nat) (s : State) :
    ∃ (flags stat : Byte) (row : List Pixel), stat.extractLsb' 0 2 = 3#2 ∧
      lcdTransferStart line s =
        { s with
          cpu := { s.cpu with ifReg := flags }
          lcd :=
            { s.lcd with
              stat := stat
              winLine := winLineAfter s.lcd line
              frameNext := s.lcd.frameNext.set line (some row)
              next := some (s.now + 43) } } := by
  obtain ⟨flags, stat, hmode, hset⟩ := lcdSetMode_spec 3#2 s
  exact ⟨flags, stat, _, hmode, by rw [lcdTransferStart, hset]; rfl⟩

/-- Everything the start of horizontal blank does. -/
theorem lcdHblankStart_spec (s : State) :
    ∃ flags stat : Byte, stat.extractLsb' 0 2 = 0#2 ∧
      lcdHblankStart s =
        { s with
          cpu := { s.cpu with ifReg := flags }
          lcd := { s.lcd with stat := stat, next := some (s.now + 51) } } := by
  obtain ⟨flags, stat, hmode, hset⟩ := lcdSetMode_spec 0#2 s
  exact ⟨flags, stat, hmode, by rw [lcdHblankStart, hset]; rfl⟩

/-- Everything the start of a vblank line does. -/
theorem lcdVblankLine_spec (line : Nat) (s : State) :
    ∃ flags stat : Byte, stat.extractLsb' 0 2 = (if line = 144 then 1#2 else s.lcd.stat.extractLsb' 0 2) ∧
      lcdVblankLine line s =
        { s with
          cpu := { s.cpu with ifReg := flags }
          lcd :=
            { s.lcd with
              ly := BitVec.ofNat 8 line
              stat := stat
              frameCur := if line = 144 then publish s.lcd.frameNext else s.lcd.frameCur
              next := some (s.now + 114) } } := by
  obtain ⟨flags, stat, hkept, hly⟩ := lcdSetLy_spec (BitVec.ofNat 8 line) s
  rcases eq_or_ne line 144 with rfl | hline
  · obtain ⟨flags', stat', hmode, hset⟩ := lcdSetMode_spec 1#2 (lcdSetLy (BitVec.ofNat 8 144) s)
    refine ⟨withBit flags' 0 true, stat', hmode, ?_⟩
    show lcdWait 114 (lcdVblankEntry (lcdSetLy (BitVec.ofNat 8 144) s)) = _
    unfold lcdVblankEntry
    rw [hset, hly]
    rfl
  · rw [if_neg hline, if_neg hline]
    refine ⟨flags, stat, hkept, ?_⟩
    rw [lcdVblankLine, if_neg hline, hly]
    rfl

/-! ## The sprite DMA engine -/

/-- A bus read does not see the hidden part of the display. -/
theorem busRead_lcdHidden (s : State) {r : Lcd} (h : lcdRegRead r = lcdRegRead s.lcd) (b : Word) :
    busRead { s with lcd := r } b = busRead s b :=
  busRead_registers s _ b rfl rfl rfl (.inl rfl) (.inl rfl) (.inl rfl) (.inl rfl) (.inl rfl) (.inl rfl)
    fun i _ => .inl (congrFun h i)

/-- The byte that the engine copies. -/
def dmaByte (s : State) : Byte := busRead s (joinBytes s.lcd.dmaSrc (BitVec.ofNat 8 s.lcd.dmaIdx))

theorem oamAddress_toNat {k : Nat} (hk : k < 0xA0) : (0xFE00#16 + BitVec.ofNat 16 k).toNat = 0xFE00 + k := by
  rw [BitVec.toNat_add, BitVec.toNat_ofNat, BitVec.toNat_ofNat]
  omega

/-- Settles O57: the byte is stored in OAM, where only its own address reads it, and the cursor is no register. -/
theorem dmaCopiesOneByte : Obligations.DmaCopiesOneByte := by
  intro s
  rcases dmaStep_spec s with ⟨hlt, e⟩ | ⟨hge, e⟩
  · refine ⟨fun _ hw => ?_, fun hge => absurd hlt hge.not_gt⟩
    have haddr := oamAddress_toNat hlt
    have hread : ∀ b, busRead (dmaStep s) b =
        busRead { s with mem := s.mem.write (0xFE00 + s.lcd.dmaIdx) (dmaByte s) } b := by
      intro b
      rw [e]
      exact busRead_lcdHidden { s with mem := s.mem.write (0xFE00 + s.lcd.dmaIdx) (dmaByte s) }
        (r := { s.lcd with dmaIdx := s.lcd.dmaIdx + 1 }) rfl b
    refine ⟨?_, fun b hb => ?_, by rw [e]⟩
    · rw [hread, busRead_coreRam _ _ (by rw [coreRam_iff]; omega), haddr]
      exact Memory.read_write_self _ _ _ hw
    · rw [hread]
      refine busRead_memWrite_ne s _ _ b (fun h => hb (BitVec.eq_of_toNat_eq (h.trans haddr.symm))) fun j hj => ?_
      have := workRamCell_range b j hj
      omega
  · exact ⟨fun hlt _ => absurd hge (by omega), fun _ => e⟩

/-! ## Power-up -/

/-- The DMA engine's step beside the power-up, which no bus read sees. -/
theorem dmaStep_powered (s : State) :
    dmaStep { s with lcd := { s.lcd with onCycle := s.now, next := some s.now } } =
      { dmaStep s with lcd := { (dmaStep s).lcd with onCycle := s.now, next := some s.now } } := by
  have hread := busRead_lcdHidden s (r := { s.lcd with onCycle := s.now, next := some s.now }) rfl
  unfold dmaStep
  simp only [hread]
  split <;> rfl

/-- The tick that powers the display up is position 0 of line 0. -/
theorem lcdTick_powerUp {s : State} (hoff : s.lcd.next = none) (hbit : s.lcd.lcdc.getLsbD 7 = true) :
    lcdTick s =
      lcdLineStart 0
        { dmaStep s with lcd := { (dmaStep s).lcd with onCycle := s.now, next := some s.now } } := by
  have hpower : powered s = { s with lcd := { s.lcd with onCycle := s.now, next := some s.now } } :=
    if_pos ⟨hoff, hbit⟩
  have hnow : (dmaStep s).now = s.now := (dmaStep_globals s).2.1
  show lcdSequence (dmaStep (powered s)) = _
  rw [hpower, dmaStep_powered, lcdSequence_of_due (congrArg some hnow.symm),
    lcdStep_eq (line := 0) (pos := 0) hnow.ge (by simp [hnow]) (by simp [hnow])]
  rfl

/-- Settles O56: the hook is its definition; power-up makes the tick position 0 of line 0, whose start the sequencer runs. -/
theorem powerUp : Obligations.PowerUp := by
  refine ⟨fun s => rfl, fun s hoff => ⟨fun hbit => ?_, fun hbit => ?_⟩⟩
  · obtain ⟨flags, stat, hmode, e⟩ := lcdLineStart_spec 0
      { dmaStep s with lcd := { (dmaStep s).lcd with onCycle := s.now, next := some s.now } }
    have hnow : (dmaStep s).now = s.now := (dmaStep_globals s).2.1
    have himage : (dmaStep s).lcd.frameCur = s.lcd.frameCur := by
      rcases dmaStep_spec s with ⟨-, e⟩ | ⟨-, e⟩ <;> rw [e]
    rw [lcdTick_powerUp hoff hbit, e]
    exact ⟨rfl, congrArg (fun n => some (n + 20)) hnow, rfl, hmode, rfl, rfl, himage, rfl⟩
  · have hpower : powered s = s := if_neg fun h => by rw [hbit] at h; exact Bool.false_ne_true h.2
    have hnext : (dmaStep s).lcd.next = none := by
      rcases dmaStep_spec s with ⟨-, e⟩ | ⟨-, e⟩ <;> rw [e] <;> exact hoff
    show lcdSequence (dmaStep (powered s)) = _
    rw [hpower]
    exact if_neg fun h => by rw [hnext] at h; cases h

end Sys2Proof.Machine
end

section
/-! SUPPORT. The frame schedule: the display at a tick of the frame, its move to the next tick, and what the CPU leaves of it
(49_display.md R343, R344, R361, R364, R365, R368). -/

namespace Sys2Proof.Machine

open Sys2Proof.Spec

/-! ## The frame's lines and positions -/

/-- The line at a time since power-up. -/
def frameLine (t : Nat) : Nat := t % 17556 / 114

/-- The position in its line at a time since power-up. -/
def framePos (t : Nat) : Nat := t % 17556 % 114

theorem framePos_lt (t : Nat) : framePos t < 114 := Nat.mod_lt _ (by decide)

theorem framePos_le (t : Nat) : framePos t ≤ t := (Nat.mod_le _ _).trans (Nat.mod_le _ _)

theorem frameLine_le (t : Nat) : frameLine t ≤ 153 := by
  unfold frameLine
  omega

theorem frame_succ_of_lt {t : Nat} (h : framePos t + 1 < 114) :
    framePos (t + 1) = framePos t + 1 ∧ frameLine (t + 1) = frameLine t := by
  unfold framePos frameLine at *
  omega

theorem frame_succ_of_eq {t : Nat} (h : framePos t = 113) :
    framePos (t + 1) = 0 ∧ frameLine (t + 1) = if frameLine t = 153 then 0 else frameLine t + 1 := by
  unfold framePos frameLine at *
  refine ⟨by omega, ?_⟩
  split <;> omega

/-! ## The display at a tick -/

/-- The display's registers after the hook of tick `n`, which is position `pos` of line `line`. -/
structure Scheduled (n line pos : Nat) (r : Lcd) : Prop where
  ly : r.ly.toNat = line
  mode : r.stat.extractLsb' 0 2 = scheduledMode line pos
  watermark : r.next = some (n - pos + segmentEnd line pos)
  window : r.winLine ≤ composedLines line pos
  filled : ∀ y < composedLines line pos, ∃ row, r.frameNext[y]? = some (some row)

/-- The schedule after the hook of the current tick. -/
def TickScheduled (s : State) : Prop :=
  s.lcd.frameNext.length = 144 ∧
    (s.DisplayOn → s.lcd.onCycle ≤ s.now ∧
      Scheduled s.now (frameLine (s.now - s.lcd.onCycle)) (framePos (s.now - s.lcd.onCycle)) s.lcd)

/-- The statements' schedule is that of the last tick. -/
theorem onSchedule_iff (s : State) :
    s.OnSchedule ↔
      s.lcd.onCycle < s.now ∧
        Scheduled (s.now - 1) (frameLine (s.now - 1 - s.lcd.onCycle)) (framePos (s.now - 1 - s.lcd.onCycle)) s.lcd :=
  ⟨fun h => ⟨h.started, h.line, h.mode, h.watermark, h.window, h.filled⟩,
    fun ⟨hstart, h⟩ => ⟨hstart, h.ly, h.mode, h.watermark, h.window, h.filled⟩⟩

theorem TickScheduled.advance {s : State} (h : TickScheduled s) :
    State.ScheduleInv { s with now := s.now + 1 } :=
  ⟨h.1, fun hon => (onSchedule_iff _).2 ⟨Nat.lt_succ_of_le (h.2 hon).1, (h.2 hon).2⟩⟩

/-! ## The next tick -/

/-- Inside a segment nothing of the schedule changes. -/
theorem segment_succ {line pos : Nat} (h : pos + 1 < segmentEnd line pos) :
    scheduledMode line (pos + 1) = scheduledMode line pos ∧ segmentEnd line (pos + 1) = segmentEnd line pos ∧
      composedLines line (pos + 1) = composedLines line pos := by
  by_cases hline : line < 144
  · rw [segmentEnd, if_pos hline] at h
    have h20 : pos + 1 < 20 ↔ pos < 20 := by split_ifs at h <;> omega
    have h63 : pos + 1 < 63 ↔ pos < 63 := by split_ifs at h <;> omega
    simp only [scheduledMode, segmentEnd, composedLines, h20, h63, and_self]
  · simp only [scheduledMode, segmentEnd, composedLines, if_neg hline, and_self]

/-- Between the watermarks the display keeps the schedule by staying as it is. -/
theorem Scheduled.stay {n line pos : Nat} {r : Lcd} (h : Scheduled n line pos r) (hpos : pos ≤ n)
    (hin : pos + 1 < segmentEnd line pos) : Scheduled (n + 1) line (pos + 1) r := by
  obtain ⟨hmode, hend, hlines⟩ := segment_succ hin
  exact ⟨h.ly, hmode ▸ h.mode, by rw [hend, h.watermark]; congr 2; omega, hlines ▸ h.window, hlines ▸ h.filled⟩

/-- The segments end at positions 20 and 63 of a visible line and at the end of every line. -/
theorem segmentEnd_cases {line pos : Nat} (h : segmentEnd line pos = pos + 1) :
    (line < 144 ∧ pos = 19) ∨ (line < 144 ∧ pos = 62) ∨ pos = 113 := by
  unfold segmentEnd at h
  split_ifs at h <;> omega

theorem segmentEnd_gt {line pos : Nat} (hpos : pos < 114) : pos < segmentEnd line pos := by
  unfold segmentEnd
  split_ifs <;> omega

theorem segmentEnd_le (line pos : Nat) : segmentEnd line pos ≤ 114 := by
  unfold segmentEnd
  split_ifs <;> decide

/-- At the end of a line every line up to it is composited. -/
theorem composedLines_last (line : Nat) : composedLines line 113 = if line < 144 then line + 1 else 144 := rfl

/-! ## The acts of the sequencer keep the schedule -/

theorem byte_toNat {line : Nat} (h : line ≤ 153) : (BitVec.ofNat 8 line).toNat = line := by
  rw [BitVec.toNat_ofNat]
  omega

/-- Position 0 of a visible line. -/
theorem scheduled_lineStart {s : State} {line : Nat} (hline : line < 144) (hwindow : line ≠ 0 → s.lcd.winLine ≤ line)
    (hfilled : ∀ y < line, ∃ row, s.lcd.frameNext[y]? = some (some row)) :
    Scheduled s.now line 0 (lcdLineStart line s).lcd := by
  obtain ⟨flags, stat, hmode, e⟩ := lcdLineStart_spec line s
  have hcomposed : composedLines line 0 = line := by simp [composedLines, hline]
  rw [e]
  refine ⟨byte_toNat (by omega), ?_, ?_, ?_, ?_⟩
  · simpa [scheduledMode, hline] using hmode
  · simp [segmentEnd, hline]
  all_goals
    rw [hcomposed]
    rcases eq_or_ne line 0 with rfl | h0
  · exact Nat.le_refl 0
  · simpa [h0] using hwindow h0
  · nofun
  · simpa [h0] using hfilled

/-- Position 20 of a visible line: the line is composited. -/
theorem Scheduled.transfer {s : State} {n line : Nat} (h : Scheduled n line 19 s.lcd) (hnow : s.now = n + 1)
    (hline : line < 144) (hlen : s.lcd.frameNext.length = 144) (hn : 19 ≤ n) :
    Scheduled s.now line 20 (lcdTransferStart line s).lcd := by
  obtain ⟨flags, stat, row, hmode, e⟩ := lcdTransferStart_spec line s
  have hbefore : composedLines line 19 = line := by simp [composedLines, hline]
  have hcomposed : composedLines line 20 = line + 1 := by simp [composedLines, hline]
  rw [e]
  refine ⟨h.ly, ?_, ?_, ?_, ?_⟩
  · simpa [scheduledMode, hline] using hmode
  · simp [segmentEnd, hline]
    omega
  · have hw := h.window
    rw [hbefore] at hw
    rw [hcomposed]
    show winLineAfter s.lcd line ≤ line + 1
    unfold winLineAfter
    split <;> omega
  · intro y hy
    rw [hcomposed] at hy
    rcases eq_or_ne y line with rfl | hne
    · exact ⟨row, List.getElem?_set_self (by omega)⟩
    · obtain ⟨old, hold⟩ := h.filled y (by rw [hbefore]; omega)
      exact ⟨old, (List.getElem?_set_ne hne.symm).trans hold⟩

/-- Position 63 of a visible line. -/
theorem Scheduled.hblank {s : State} {n line : Nat} (h : Scheduled n line 62 s.lcd) (hnow : s.now = n + 1)
    (hline : line < 144) (hn : 62 ≤ n) : Scheduled s.now line 63 (lcdHblankStart s).lcd := by
  obtain ⟨flags, stat, hmode, e⟩ := lcdHblankStart_spec s
  have hcomposed : composedLines line 63 = composedLines line 62 := by simp [composedLines]
  rw [e]
  refine ⟨h.ly, ?_, ?_, hcomposed ▸ h.window, hcomposed ▸ h.filled⟩
  · simpa [scheduledMode, hline] using hmode
  · simp [segmentEnd, hline]
    omega

/-- Position 0 of a vblank line. -/
theorem scheduled_vblankLine {s : State} {line : Nat} (hline : 144 ≤ line) (hlast : line ≤ 153)
    (hmode : line ≠ 144 → s.lcd.stat.extractLsb' 0 2 = 1#2) (hwindow : s.lcd.winLine ≤ 144)
    (hfilled : ∀ y < 144, ∃ row, s.lcd.frameNext[y]? = some (some row)) :
    Scheduled s.now line 0 (lcdVblankLine line s).lcd := by
  obtain ⟨flags, stat, hstat, e⟩ := lcdVblankLine_spec line s
  have hvisible : ¬line < 144 := by omega
  have hcomposed : composedLines line 0 = 144 := if_neg hvisible
  rw [e]
  refine ⟨byte_toNat hlast, ?_, ?_, hcomposed ▸ hwindow, hcomposed ▸ hfilled⟩
  · rw [scheduledMode, if_neg hvisible, hstat]
    split
    · rfl
    · exact hmode ‹_›
  · simp [segmentEnd, hvisible]

/-- From the last position of a line to position 0 of the next. -/
theorem Scheduled.nextLine {s : State} {n line line' : Nat} (h : Scheduled n line 113 s.lcd) (hline : line ≤ 153)
    (hnext : line' = if line = 153 then 0 else line + 1) :
    Scheduled s.now line' 0 (if line' < 144 then lcdLineStart line' s else lcdVblankLine line' s).lcd := by
  have hw := h.window
  have hf := h.filled
  have hm := h.mode
  rw [composedLines_last] at hw hf
  split
  case isTrue hvisible =>
    refine scheduled_lineStart hvisible (fun h0 => ?_) fun y hy => hf y ?_
    · split_ifs at hw hnext <;> omega
    · split_ifs at hnext ⊢ <;> omega
  case isFalse hvisible =>
    have hstep : line' = line + 1 := by split_ifs at hnext <;> omega
    refine scheduled_vblankLine (by omega) (by split_ifs at hnext <;> omega) (fun h144 => ?_) ?_ fun y hy => hf y ?_
    · rwa [scheduledMode, if_neg (by omega)] at hm
    · split_ifs at hw <;> omega
    · split_ifs <;> omega

/-! ## The hook -/

theorem LcdWrites.frameNext_length {s u : State} (w : LcdWrites s u) (h : s.lcd.frameNext.length = 144) :
    u.lcd.frameNext.length = 144 := by
  induction w with
  | refl => exact h
  | setMode m _ ih => rwa [lcdSetMode_frame]
  | setLy v _ _ ih => rwa [lcdSetLy_frame]
  | newFrame _ _ => exact List.length_replicate
  | composeInto line _ ih => exact List.length_set.trans ih
  | publish _ ih | requestVblank _ ih => exact ih

/-- What an act of the sequencer leaves of the cycle, the origin and the frame builder's size. -/
theorem lcdStep_kept (s : State) (h : s.lcd.frameNext.length = 144) :
    (lcdStep s).now = s.now ∧ (lcdStep s).lcd.onCycle = s.lcd.onCycle ∧ (lcdStep s).lcd.frameNext.length = 144 := by
  obtain ⟨u, wait, hu, -, e⟩ := lcdStep_writes s
  rw [e]
  refine ⟨?_, ?_, hu.frameNext_length h⟩
  · show u.now = s.now
    rw [hu.frame]
  · show u.lcd.onCycle = s.lcd.onCycle
    rw [hu.frame]

/-- At its watermark the sequencer moves the display on by the schedule. -/
theorem lcdStep_scheduled {s : State} (hlen : s.lcd.frameNext.length = 144) (h : s.OnSchedule)
    (hdue : s.lcd.next = some s.now) :
    Scheduled s.now (frameLine (s.now - s.lcd.onCycle)) (framePos (s.now - s.lcd.onCycle)) (lcdStep s).lcd := by
  obtain ⟨hstart, hs⟩ := (onSchedule_iff s).1 h
  have htime : s.now - s.lcd.onCycle = s.now - 1 - s.lcd.onCycle + 1 := by omega
  have hpos := framePos_lt (s.now - 1 - s.lcd.onCycle)
  have hle := framePos_le (s.now - 1 - s.lcd.onCycle)
  have hline := frameLine_le (s.now - 1 - s.lcd.onCycle)
  have hnow : s.now = s.now - 1 + 1 := by omega
  rw [lcdStep_eq (line := frameLine (s.now - s.lcd.onCycle)) (pos := framePos (s.now - s.lcd.onCycle)) hstart.le rfl rfl,
    htime]
  have hend : segmentEnd (frameLine (s.now - 1 - s.lcd.onCycle)) (framePos (s.now - 1 - s.lcd.onCycle)) =
      framePos (s.now - 1 - s.lcd.onCycle) + 1 := by
    have hw := hs.watermark.symm.trans hdue
    rw [Option.some.injEq] at hw
    omega
  have hsame := frame_succ_of_lt (t := s.now - 1 - s.lcd.onCycle)
  have hwrap := frame_succ_of_eq (t := s.now - 1 - s.lcd.onCycle)
  generalize s.now - 1 - s.lcd.onCycle = t at *
  rcases segmentEnd_cases hend with ⟨hvisible, hp⟩ | ⟨hvisible, hp⟩ | hp
  · obtain ⟨hp', hl'⟩ := hsame (by omega)
    rw [hp', hl', hp, if_pos hvisible, if_neg (by decide), if_pos rfl]
    rw [hp] at hs
    exact hs.transfer hnow hvisible hlen (by omega)
  · obtain ⟨hp', hl'⟩ := hsame (by omega)
    rw [hp', hl', hp, if_pos hvisible, if_neg (by decide), if_neg (by decide)]
    rw [hp] at hs
    exact hs.hblank hnow hvisible (by omega)
  · obtain ⟨hp', hl'⟩ := hwrap hp
    rw [hp', if_pos rfl]
    rw [hp] at hs
    exact hs.nextLine hline hl'

/-- At any other tick the display is on the schedule by staying as it is. -/
theorem onSchedule_stay {s : State} (h : s.OnSchedule) (hdue : s.lcd.next ≠ some s.now) :
    Scheduled s.now (frameLine (s.now - s.lcd.onCycle)) (framePos (s.now - s.lcd.onCycle)) s.lcd := by
  obtain ⟨hstart, hs⟩ := (onSchedule_iff s).1 h
  have htime : s.now - s.lcd.onCycle = s.now - 1 - s.lcd.onCycle + 1 := by omega
  have hnow : s.now - 1 + 1 = s.now := by omega
  have hle : framePos (s.now - 1 - s.lcd.onCycle) ≤ s.now - 1 := (framePos_le _).trans (Nat.sub_le _ _)
  have hin : framePos (s.now - 1 - s.lcd.onCycle) + 1 <
      segmentEnd (frameLine (s.now - 1 - s.lcd.onCycle)) (framePos (s.now - 1 - s.lcd.onCycle)) := by
    refine lt_of_le_of_ne (segmentEnd_gt (framePos_lt _)) fun heq => hdue ?_
    rw [hs.watermark, ← heq]
    congr 1
    omega
  obtain ⟨hpos, hline⟩ := frame_succ_of_lt (hin.trans_le (segmentEnd_le _ _))
  rw [htime, hpos, hline]
  exact hnow ▸ hs.stay hle hin

/-- The sequencer's part of the hook: from the schedule up to the last tick, or from the tick of power-up. -/
theorem lcdSequence_scheduled {s : State} (hlen : s.lcd.frameNext.length = 144)
    (h : s.DisplayOn → (s.lcd.onCycle = s.now ∧ s.lcd.next = some s.now) ∨ s.OnSchedule) :
    TickScheduled (lcdSequence s) := by
  by_cases hdue : s.lcd.next = some s.now
  · obtain ⟨hnow, hon, hlen'⟩ := lcdStep_kept s hlen
    rw [lcdSequence_of_due hdue]
    refine ⟨hlen', fun _ => ?_⟩
    rw [hnow, hon]
    rcases h (by rw [State.DisplayOn, hdue]; exact Option.some_ne_none _) with ⟨hfresh, -⟩ | hs
    · refine ⟨hfresh.le, ?_⟩
      rw [hfresh, Nat.sub_self, lcdStep_eq (line := 0) (pos := 0) hfresh.le (by simp [hfresh]) (by simp [hfresh])]
      exact scheduled_lineStart (by decide) (fun h0 => absurd rfl h0) nofun
    · exact ⟨hs.started.le, lcdStep_scheduled hlen hs hdue⟩
  · rw [show lcdSequence s = s from if_neg hdue]
    refine ⟨hlen, fun hon => ?_⟩
    have hs := (h hon).resolve_left fun hfresh => hdue hfresh.2
    exact ⟨hs.started.le, onSchedule_stay hs hdue⟩

/-- The Timer's tick leaves the display, the storage and the global state. -/
theorem timerTick_rest (s : State) :
    (timerTick s).lcd = s.lcd ∧ (timerTick s).mem = s.mem ∧ SameGlobals s (timerTick s) := timerChange_rest _ s

/-- The schedule does not look at the DMA cursor, nor past the display and the cycle. -/
theorem State.ScheduleInv.congr {s t : State} (h : s.ScheduleInv) (hlcd : t.lcd = { s.lcd with dmaIdx := t.lcd.dmaIdx })
    (hnow : t.now = s.now) : t.ScheduleInv := by
  obtain ⟨hlen, hon⟩ := h
  generalize t.lcd.dmaIdx = k at hlcd
  refine ⟨by rw [hlcd]; exact hlen, fun hon' => (onSchedule_iff t).2 ?_⟩
  rw [State.DisplayOn, hlcd] at hon'
  obtain ⟨hstart, hs⟩ := (onSchedule_iff s).1 (hon hon')
  rw [hlcd, hnow]
  exact ⟨hstart, hs.ly, hs.mode, hs.watermark, hs.window, hs.filled⟩

theorem dmaStep_lcd (s : State) : (dmaStep s).lcd = { s.lcd with dmaIdx := (dmaStep s).lcd.dmaIdx } := by
  rcases dmaStep_spec s with ⟨-, e⟩ | ⟨-, e⟩ <;> rw [e]

/-- The display's hook moves the schedule to the current tick. -/
theorem lcdTick_scheduled {s : State} (h : s.ScheduleInv) : TickScheduled (lcdTick s) := by
  have hnow : ∀ u : State, (dmaStep u).now = u.now := fun u => (dmaStep_globals u).2.1
  by_cases hpower : s.lcd.next = none ∧ s.lcd.lcdc.getLsbD 7 = true
  · have e : lcdTick s = lcdSequence (dmaStep (lcdPowerUp s)) := by rw [lcdTick, lcdPowerTest, if_pos hpower]
    rw [e]
    refine lcdSequence_scheduled (by rw [dmaStep_lcd]; exact h.1) fun _ => .inl ?_
    rw [dmaStep_lcd, hnow]
    exact ⟨rfl, rfl⟩
  · have e : lcdTick s = lcdSequence (dmaStep s) := by rw [lcdTick, lcdPowerTest, if_neg hpower]
    obtain ⟨hlen, hon⟩ := h.congr (dmaStep_lcd s) (hnow s)
    rw [e]
    exact lcdSequence_scheduled hlen fun hdisplay => .inr (hon hdisplay)

/-! ## The CPU -/

/-- What the CPU leaves of the schedule: it powers the display down, or LY, the mode field and the watermark are as before. -/
structure ScheduleKept (s t : State) : Prop where
  now : t.now = s.now
  onCycle : t.lcd.onCycle = s.lcd.onCycle
  winLine : t.lcd.winLine = s.lcd.winLine
  frameNext : t.lcd.frameNext = s.lcd.frameNext
  shown : t.lcd.next = none ∨
    (t.lcd.next = s.lcd.next ∧ t.lcd.ly = s.lcd.ly ∧ t.lcd.stat.extractLsb' 0 2 = s.lcd.stat.extractLsb' 0 2)

theorem TickScheduled.of_kept {s t : State} (h : TickScheduled s) (k : ScheduleKept s t) : TickScheduled t := by
  obtain ⟨hlen, hon⟩ := h
  refine ⟨by rw [k.frameNext, hlen], fun hon' => ?_⟩
  rcases k.shown with hoff | ⟨hnext, hly, hmode⟩
  · exact absurd hoff hon'
  · obtain ⟨hle, hs⟩ := hon (by rwa [State.DisplayOn, hnext] at hon')
    rw [k.now, k.onCycle]
    exact ⟨hle, hly ▸ hs.ly, hmode ▸ hs.mode, hnext ▸ hs.watermark, k.winLine ▸ hs.window, k.frameNext ▸ hs.filled⟩

namespace ScheduleKept

variable {s t u : State}

theorem of_lcd_eq (hlcd : t.lcd = s.lcd) (hnow : t.now = s.now) : ScheduleKept s t := by
  refine ⟨hnow, ?_, ?_, ?_, .inr ⟨?_, ?_, ?_⟩⟩ <;> rw [hlcd]

theorem refl (s : State) : ScheduleKept s s := of_lcd_eq rfl rfl

theorem trans (h : ScheduleKept s t) (h' : ScheduleKept t u) : ScheduleKept s u where
  now := h'.now.trans h.now
  onCycle := h'.onCycle.trans h.onCycle
  winLine := h'.winLine.trans h.winLine
  frameNext := h'.frameNext.trans h.frameNext
  shown := by
    rcases h'.shown with hoff | ⟨hnext, hly, hmode⟩
    · exact .inl hoff
    · rw [hnext, hly, hmode]
      exact h.shown

theorem lcdCompare (s : State) : ScheduleKept s (lcdCompare s) := by
  obtain ⟨-, -, -, ⟨-, hnow, -⟩, e⟩ := lcdCompare_frame s
  exact ⟨hnow, by rw [e], by rw [e], by rw [e], .inr ⟨by rw [e], by rw [e], lcdCompare_mode s⟩⟩

/-- With bit 7 cleared the write powers the display down. -/
theorem lcdWriteLcdc (v : Byte) (s : State) : ScheduleKept s (lcdWriteLcdc v s) := by
  unfold Machine.lcdWriteLcdc
  simp only
  split
  · rw [lcdPowerDown_eq]
    refine trans ?_ (lcdCompare _)
    exact ⟨rfl, rfl, rfl, rfl, .inl rfl⟩
  · exact ⟨rfl, rfl, rfl, rfl, .inr ⟨rfl, rfl, rfl⟩⟩

/-- The mode field is not writable (49_display.md R354). -/
theorem lcdWriteStat (v : Byte) (s : State) : ScheduleKept s (lcdWriteStat v s) := by
  have hmode : ((v &&& 0xF8#8) ||| (s.lcd.stat &&& 0x07#8)).extractLsb' 0 2 = s.lcd.stat.extractLsb' 0 2 := by
    ext i hi
    rcases (by omega : i = 0 ∨ i = 1) with rfl | rfl <;> simp
  exact ⟨rfl, rfl, rfl, rfl, .inr ⟨rfl, rfl, hmode⟩⟩

theorem lcdRegWrite (i : Nat) (v : Byte) (s : State) : ScheduleKept s (lcdRegWrite i v s) := by
  unfold Machine.lcdRegWrite
  split
  case h_1 => exact lcdWriteLcdc v s
  case h_2 => exact lcdWriteStat v s
  case h_6 =>
    refine trans ?_ (lcdCompare _)
    exact ⟨rfl, rfl, rfl, rfl, .inr ⟨rfl, rfl, rfl⟩⟩
  all_goals exact ⟨rfl, rfl, rfl, rfl, .inr ⟨rfl, rfl, rfl⟩⟩

theorem busWrite (s : State) (a : Word) (v : Byte) : ScheduleKept s (busWrite s a v) := by
  obtain ⟨-, -, hcpu, -, hcpuNow, -⟩ := cpuWrite_frame s a v
  obtain ⟨-, htimer, -, -, htimerNow, -⟩ := timerWrite_spec (cpuWrite s a v) a v
  obtain ⟨-, hplat, -, hplatNow, -⟩ := platformWrite_rest a v (lcdWrite (timerWrite (cpuWrite s a v) a v) a v)
  rw [busWrite_chain]
  refine (of_lcd_eq hcpu hcpuNow).trans <| (of_lcd_eq htimer htimerNow).trans <| trans ?_ (of_lcd_eq hplat hplatNow)
  unfold lcdWrite
  split
  · exact of_lcd_eq rfl rfl
  split
  · exact lcdRegWrite _ v _
  · exact refl _

theorem cpuWrites (w : CpuWrites s t) : ScheduleKept s t := by
  induction w with
  | refl => exact refl _
  | setReg r v _ ih => exact ih.trans (of_lcd_eq (State.setReg_lcd _ r v) (State.setReg_now _ r v))
  | setF _ _ _ ih | setSp _ _ ih | setIme _ _ ih | setIf _ _ ih => exact ih.trans (of_lcd_eq rfl rfl)
  | busWrite a v _ ih => exact ih.trans (busWrite _ a v)

theorem cpuAction (act : CpuAction s t) : ScheduleKept s t := by
  cases act with
  | jump target cost _ w => exact (cpuWrites w).trans (of_lcd_eq rfl rfl)
  | halt target => exact of_lcd_eq rfl rfl
  | fatal kind => exact of_lcd_eq rfl rfl

theorem wakeTest (s : State) : ScheduleKept s (wakeTest s) := by
  rcases wakeTest_spec s with ⟨-, -, e⟩ | ⟨-, e⟩ <;> rw [e] <;> exact of_lcd_eq rfl rfl

/-- The CPU's tick answers a state with the schedule kept. -/
theorem cpuTick (s : State) : ∃ t, cpuTick s = .next t ∧ ScheduleKept s t := by
  rcases cpuTick_cases s with ⟨-, e⟩ | ⟨-, t, e, act⟩
  · exact ⟨_, e, wakeTest s⟩
  · exact ⟨t, e, (wakeTest s).trans (cpuAction act)⟩

end ScheduleKept

/-- Settles O47: the host's events and the Timer leave the display, its hook moves the schedule to the tick, the CPU keeps it or
powers the display down, and `now` goes on. -/
theorem stepKeepsDisplaySchedule : Obligations.StepKeepsDisplaySchedule := by
  intro s t h hstep hfatal
  have hrun : s.Running := by
    unfold State.Running
    cases hf : s.fatal with
    | none => rfl
    | some kind =>
      rw [step, hf] at hstep
      cases hstep
  have hevents : (deliverHostEvents s).ScheduleInv :=
    h.congr (by rw [deliverHostEvents_spec]) (by rw [deliverHostEvents_spec])
  obtain ⟨hlcd, -, -, hnow, -⟩ := timerTick_rest (deliverHostEvents s)
  have htimer : (timerTick (deliverHostEvents s)).ScheduleInv := hevents.congr (by rw [hlcd]) hnow
  have hdevices : TickScheduled (deviceTicks s) := lcdTick_scheduled htimer
  obtain ⟨u, hu, hkept⟩ := ScheduleKept.cpuTick (deviceTicks s)
  rw [step_of_running hrun, hu] at hstep
  cases hstep
  rcases advanceNow_spec u with ⟨-, e⟩ | ⟨hf, e⟩
  · rw [e]
    exact (hdevices.of_kept hkept).advance
  · rw [e] at hfatal
    exact absurd hfatal hf

end Sys2Proof.Machine
end

section
/-! SUPPORT. What the host's events, the Timer and the Display Controller change in a tick (60_exceptions.md R423, R427;
70_reset_and_hazards.md R476). -/

namespace Sys2Proof.Machine

open Sys2Proof.Spec

/-! ## The host's events -/

/-- The events of the current cycle are requests, one after another. -/
theorem deliverHostEvents_eq (s : State) :
    deliverHostEvents s = requestAll ((s.hostEvents.filter (fun e => e.1 = s.now)).map Prod.snd) s := by
  unfold deliverHostEvents requestAll
  rw [List.foldl_map, List.foldl_filter]
  simp only [decide_eq_true_eq]

/-- Settles O43: the requests of the cycle's events set their bits. -/
theorem hostEventsDelivered : Obligations.HostEventsDelivered := by
  refine fun s => ⟨deliverHostEvents_spec s, fun i hi => ?_⟩
  have hevents : (∃ k ∈ (s.hostEvents.filter (fun e => e.1 = s.now)).map Prod.snd, k.val = i) ↔
      ∃ k : Fin 5, k.val = i ∧ (s.now, k) ∈ s.hostEvents := by
    simp only [List.mem_map, List.mem_filter, decide_eq_true_eq, Prod.exists]
    constructor
    · rintro ⟨k, ⟨n, k, ⟨hmem, rfl⟩, rfl⟩, hk⟩
      exact ⟨k, hk, hmem⟩
    · rintro ⟨k, hk, hmem⟩
      exact ⟨k, ⟨s.now, k, ⟨hmem, rfl⟩, rfl⟩, hk⟩
  rw [deliverHostEvents_eq, requestAll_getLsbD _ _ hi, hevents]

/-! ## What a device keeps -/

/-- What the host's events, the Timer and the display leave of a state: the CPU but for requests below bit 5 of IF, TMA and TAC,
the display's writable registers and STAT's high bits, the storage outside OAM, the platform and the global state. -/
structure DeviceKept (s t : State) : Prop where
  cpu : t.cpu = { s.cpu with ifReg := t.cpu.ifReg }
  raised : ∀ i < 8, s.cpu.ifReg.getLsbD i = true → t.cpu.ifReg.getLsbD i = true
  ifHigh : ∀ i < 8, 5 ≤ i → t.cpu.ifReg.getLsbD i = s.cpu.ifReg.getLsbD i
  tma : t.timer.tma = s.timer.tma
  tac : t.timer.tac = s.timer.tac
  lcd : t.lcd =
    { s.lcd with
      ly := t.lcd.ly, stat := t.lcd.stat, dmaIdx := t.lcd.dmaIdx, onCycle := t.lcd.onCycle, winLine := t.lcd.winLine,
      frameCur := t.lcd.frameCur, frameNext := t.lcd.frameNext, next := t.lcd.next }
  statHigh : ∀ i < 8, 3 ≤ i → t.lcd.stat.getLsbD i = s.lcd.stat.getLsbD i
  storage : StorageKept s t
  platform : t.platform = s.platform
  globals : SameGlobals s t

namespace DeviceKept

variable {s t u : State}

theorem trans (h : DeviceKept s t) (h' : DeviceKept t u) : DeviceKept s u where
  cpu := by rw [h'.cpu, h.cpu]
  raised i hi hs := h'.raised i hi (h.raised i hi hs)
  ifHigh i hi h5 := (h'.ifHigh i hi h5).trans (h.ifHigh i hi h5)
  tma := h'.tma.trans h.tma
  tac := h'.tac.trans h.tac
  lcd := by rw [h'.lcd, h.lcd]
  statHigh i hi h3 := (h'.statHigh i hi h3).trans (h.statHigh i hi h3)
  storage a ha := (h'.storage a ha).trans (h.storage a ha)
  platform := h'.platform.trans h.platform
  globals := h.globals.trans h'.globals

theorem requestInterrupt {i : Nat} (hi : i < 5) (s : State) : DeviceKept s (requestInterrupt i s) where
  cpu := rfl
  raised j hj hs := by
    rw [requestInterrupt_spec, withBit_getLsbD _ _ _ hj, hs]
    exact ite_self true
  ifHigh j hj h5 := by rw [requestInterrupt_spec, withBit_getLsbD _ _ _ hj, if_neg (by omega)]
  tma := rfl
  tac := rfl
  lcd := rfl
  statHigh _ _ _ := rfl
  storage _ _ := rfl
  platform := rfl
  globals := .rfl' s

theorem setTimer {r : Timer} (htma : r.tma = s.timer.tma) (htac : r.tac = s.timer.tac) :
    DeviceKept s { s with timer := r } :=
  ⟨rfl, fun _ _ h => h, fun _ _ _ => rfl, htma, htac, rfl, fun _ _ _ => rfl, fun _ _ => rfl, rfl, .rfl' s⟩

theorem setLcd {r : Lcd}
    (hr : r =
      { s.lcd with
        ly := r.ly, stat := r.stat, dmaIdx := r.dmaIdx, onCycle := r.onCycle, winLine := r.winLine,
        frameCur := r.frameCur, frameNext := r.frameNext, next := r.next })
    (hstat : ∀ i < 8, 3 ≤ i → r.stat.getLsbD i = s.lcd.stat.getLsbD i) : DeviceKept s { s with lcd := r } :=
  ⟨rfl, fun _ _ h => h, fun _ _ _ => rfl, rfl, rfl, hr, hstat, fun _ _ => rfl, rfl, .rfl' s⟩

/-- A byte stored in OAM. -/
theorem setMem {k : Nat} (hk : 0xFE00 ≤ k ∧ k ≤ 0xFE9F) (v : Byte) :
    DeviceKept s { s with mem := s.mem.write k v } :=
  ⟨rfl, fun _ _ h => h, fun _ _ _ => rfl, rfl, rfl, rfl, fun _ _ _ => rfl,
    fun a ha => Memory.read_write_ne _ _ _ _ (by omega), rfl, .rfl' s⟩

theorem refl (s : State) : DeviceKept s s := setTimer rfl rfl

/-! ### The devices -/

theorem requestAll (l : List (Fin 5)) (s : State) : DeviceKept s (requestAll l s) := by
  induction l generalizing s with
  | nil => exact refl s
  | cons i l ih => exact (requestInterrupt i.isLt s).trans (ih _)

theorem deliverHostEvents (s : State) : DeviceKept s (deliverHostEvents s) := by
  rw [deliverHostEvents_eq]
  exact requestAll _ s

theorem timerTick (s : State) : DeviceKept s (timerTick s) := by
  unfold Machine.timerTick timerChange incTima
  split
  · split
    · refine trans ?_ (requestInterrupt (i := 2) (by decide) _)
      exact setTimer rfl rfl
    · exact setTimer rfl rfl
  · exact setTimer rfl rfl

theorem lcdPowerTest (s : State) : DeviceKept s (lcdPowerTest s) := by
  unfold Machine.lcdPowerTest
  split
  · exact setLcd rfl fun _ _ _ => rfl
  · exact refl s

theorem dmaStep (s : State) : DeviceKept s (dmaStep s) := by
  rcases dmaStep_spec s with ⟨hlt, e⟩ | ⟨-, e⟩ <;> rw [e]
  · exact (setMem (k := 0xFE00 + s.lcd.dmaIdx) (by omega) _).trans (setLcd rfl fun _ _ _ => rfl)
  · exact refl s

theorem lcdCompare (s : State) : DeviceKept s (lcdCompare s) := by
  have hbit : ∀ x, DeviceKept s { s with lcd := { s.lcd with stat := withBit s.lcd.stat 2 x } } := fun x =>
    setLcd rfl fun i hi h3 => by rw [withBit_getLsbD _ _ _ hi, if_neg (by omega)]
  rcases lcdCompare_spec s with ⟨-, -, e⟩ | ⟨-, -, e⟩ | ⟨-, e⟩ <;> rw [e]
  · exact (hbit true).trans (requestInterrupt (by decide) _)
  · exact hbit true
  · exact hbit false

theorem lcdSetLy (v : Byte) (s : State) : DeviceKept s (lcdSetLy v s) :=
  trans (setLcd (r := { s.lcd with ly := v }) rfl fun _ _ _ => rfl) (lcdCompare { s with lcd := { s.lcd with ly := v } })

theorem lcdSetMode (m : Pixel) (s : State) : DeviceKept s (lcdSetMode m s) := by
  have hmode : DeviceKept s { s with lcd := { s.lcd with stat := withMode s.lcd.stat m } } :=
    setLcd rfl fun i hi h3 => by rw [withMode_getLsbD _ _ hi, if_neg (by omega)]
  unfold Machine.lcdSetMode
  simp only
  split
  · exact hmode.trans (requestInterrupt (by decide) _)
  · exact hmode

theorem lcdWrites (w : LcdWrites s u) : DeviceKept s u := by
  induction w with
  | refl => exact refl s
  | setMode m _ ih => exact ih.trans (lcdSetMode m _)
  | setLy v _ _ ih => exact ih.trans (lcdSetLy v _)
  | newFrame _ ih | composeInto _ _ ih | publish _ ih => exact ih.trans (setLcd rfl fun _ _ _ => rfl)
  | requestVblank _ ih => exact ih.trans (requestInterrupt (by decide) _)

theorem lcdSequence (s : State) : DeviceKept s (lcdSequence s) := by
  unfold Machine.lcdSequence
  split
  · obtain ⟨u, wait, hu, -, e⟩ := lcdStep_writes s
    rw [e]
    exact (lcdWrites hu).trans (setLcd rfl fun _ _ _ => rfl)
  · exact refl s

theorem deviceTicks (s : State) : DeviceKept s (deviceTicks s) :=
  (deliverHostEvents s).trans <| (timerTick _).trans <| (lcdPowerTest _).trans <| (dmaStep _).trans (lcdSequence _)

end DeviceKept

/-! ## The counter -/

theorem lcdTick_timer (s : State) : (lcdTick s).timer = s.timer := by
  have hpower : (lcdPowerTest s).timer = s.timer := by
    unfold lcdPowerTest
    split <;> rfl
  have hdma : ∀ u, (dmaStep u).timer = u.timer := fun u => by
    rcases dmaStep_spec u with ⟨-, e⟩ | ⟨-, e⟩ <;> rw [e]
  have hseq : ∀ u, (lcdSequence u).timer = u.timer := fun u => by
    unfold lcdSequence
    split
    · obtain ⟨w, wait, hw, -, e⟩ := lcdStep_writes u
      rw [e, hw.frame]
      rfl
    · rfl
  rw [lcdTick, hseq, hdma, hpower]

theorem deviceTicks_counter (s : State) : (deviceTicks s).timer.counter = s.timer.counter + 4#16 := by
  rw [deviceTicks, lcdTick_timer, timerTick, timerChange_counter, deliverHostEvents_spec]
  rfl

/-- Settles O49: what the three keep together, and the Timer's tick of the counter. -/
theorem devicesOwnTheirState : Obligations.DevicesOwnTheirState := by
  intro s t ht
  obtain rfl : t = deviceTicks s := ht
  have h := DeviceKept.deviceTicks s
  obtain ⟨hevents, hnow, hfatal⟩ := h.globals
  refine ⟨h.cpu, h.raised, h.ifHigh, h.tma, h.tac, deviceTicks_counter s, ?_, ?_, ?_, ?_, ?_, ?_, ?_, ?_, ?_, ?_, h.statHigh,
    h.storage, h.platform, hevents, hnow, hfatal⟩ <;> rw [h.lcd]

end Sys2Proof.Machine
end

section
/-! SUPPORT. The tick at which the CPU is idle, services an interrupt, or meets a Fatal (60_exceptions.md R428 to R431, R440,
R445; 70_reset_and_hazards.md R470). -/

namespace Sys2Proof.Machine

open Sys2Proof.Spec

variable {s t : State}

/-! ## The state that the CPU finds -/

theorem wakeTest_globals (s : State) : SameGlobals s (wakeTest s) := by
  rcases wakeTest_spec s with ⟨-, -, e⟩ | ⟨-, e⟩ <;> rw [e] <;> exact .rfl' s

/-- The cycle, the Fatal and the events that the CPU finds are those of the state before the tick. -/
theorem atCpu_globals (s : State) : SameGlobals s (atCpu s) := (deviceTicks_globals s).trans (wakeTest_globals _)

/-- A tick at the CPU's watermark is what the CPU does, and the end of the tick. -/
theorem step_of_due (hrun : s.Running) (hdue : (atCpu s).cpu.next = some s.now) :
    step s = onNext advanceNow (cpuActive (atCpu s)) := by
  rw [step_of_running hrun, cpuTick_deviceTicks_of_due hdue]

/-! ## Idle -/

/-- Settles O39: away from the watermark the wake test has changed nothing, and it wakes a halted CPU whenever an interrupt is
pending. -/
theorem idleTick : Obligations.IdleTick := by
  intro s hrun hidle
  obtain ⟨-, hnow, hfatal⟩ := deviceTicks_globals s
  have hnotDue : (wakeTest (deviceTicks s)).cpu.next ≠ some (deviceTicks s).now := by rwa [hnow]
  obtain ⟨hpending, hsame⟩ : ((deviceTicks s).cpu.next ≠ none ∨ pendingBits (deviceTicks s) = 0#8) ∧
      wakeTest (deviceTicks s) = deviceTicks s := by
    rcases wakeTest_spec (deviceTicks s) with ⟨-, -, e⟩ | hkept
    · exact absurd (by rw [e]) hnotDue
    · exact hkept
  have hcpu : cpuTick (deviceTicks s) = .next (deviceTicks s) := by
    rcases cpuTick_cases (deviceTicks s) with ⟨-, e⟩ | ⟨hdue, -⟩
    · rw [e, hsame]
    · exact absurd hdue hnotDue
  refine ⟨?_, fun hhalted => hpending.resolve_left fun hne => hne ?_⟩
  · have hadvance : advanceNow (deviceTicks s) = { deviceTicks s with now := (deviceTicks s).now + 1 } :=
      if_pos (hfatal.trans hrun)
    rw [step_of_running hrun, hcpu, onNext, hadvance, hnow]
    rfl
  · rw [(DeviceKept.deviceTicks s).cpu]
    exact hhalted

/-! ## Service -/

theorem lowestSetBit_eq {p : Byte} {i : Nat} (hi : p.getLsbD i = true) (hlow : ∀ j < i, p.getLsbD j = false) :
    lowestSetBit p = some i := by
  cases hp : lowestSetBit p with
  | none =>
    rw [(lowestSetBit_none p).1 hp, BitVec.getLsbD_zero] at hi
    cases hi
  | some k =>
    obtain ⟨-, hk, hklow⟩ := lowestSetBit_some p k hp
    rcases Nat.lt_trichotomy k i with hlt | rfl | hgt
    · rw [hlow k hlt] at hk
      cases hk
    · rfl
    · rw [hklow i hgt] at hi
      cases hi

/-- With IME set the CPU takes the lowest pending interrupt. -/
theorem cpuActive_of_pending {i : Nat} (hime : s.cpu.ime = true) (hi : (pendingBits s).getLsbD i = true)
    (hlow : ∀ j < i, (pendingBits s).getLsbD j = false) : cpuActive s = .next (takeInterrupt i s) := by
  have hservice : serviceable s = some i := by
    rw [serviceable, hime, if_pos rfl, lowestSetBit_eq hi hlow]
  rw [cpuActive, hservice]

/-- The state in which the bit of interrupt `i` is cleared. -/
def ifCleared (i : Nat) (s : State) : State := { s with cpu := { s.cpu with ifReg := withBit s.cpu.ifReg i false } }

theorem takeInterrupt_of_lt {i : Nat} (hi : i < 5) (s : State) :
    takeInterrupt i s = jumpTo (vector i) 5 ((push16 s.cpu.pc (ifCleared i s)).setIme false) := if_neg (by omega)

theorem outside_setIme (s : State) (x : Bool) : Outside s (s.setIme x) := .of_cpu rfl rfl

/-- A push, IME cleared, and a jump. -/
theorem pushes_setIme_jumpTo (v : Word) (s : State) (x : Bool) (target : Word) (cost : Nat) :
    Pushes v s (jumpTo target cost ((push16 v s).setIme x)) := by
  refine ⟨by simp [push16_sp], ?_⟩
  rw [push16_eq]
  exact storesWord_of_outside ((outside_setSp _ _).trans <| (outside_setIme _ x).trans (outside_jumpTo _ _ _))
    fun r _ => by simp

/-- Settles O40: the CPU takes interrupt i on the state with its bit cleared. -/
theorem stepServicesInterrupt : Obligations.StepServicesInterrupt := by
  intro s i hrun hdue hime hlt hi hlow
  obtain ⟨-, hnow, hfatal⟩ := atCpu_globals s
  obtain ⟨hge, -⟩ | ⟨-, hpc, hime', -, hnext, -, hnow', hfatal'⟩ := takeInterrupt_spec i (atCpu s)
  · omega
  have htake := takeInterrupt_of_lt hlt (atCpu s)
  have hend : advanceNow (takeInterrupt i (atCpu s)) = { takeInterrupt i (atCpu s) with now := s.now + 1 } := by
    rw [advanceNow, if_pos (hfatal'.trans (hfatal.trans hrun)), hnow', hnow]
  refine ⟨takeInterrupt i (atCpu s), ifCleared i (atCpu s), fun j hj => ?_, rfl, ?_, ?_, ?_, hime', hpc, ?_⟩
  · show (withBit _ i false).getLsbD j = _
    rw [withBit_getLsbD _ _ _ hj]
    by_cases hji : j = i <;> simp [hji]
  · rw [step_of_due hrun hdue, cpuActive_of_pending hime hi hlow, onNext, hend]
  · rw [htake]
    exact pushes_setIme_jumpTo _ _ _ _ _
  · rw [htake, jumpTo_f, State.setIme_f, push16_f]
    rfl
  · rw [hnext, hnow]

/-- Settles O41: taking an index of 5 to 7 records the Fatal, at which `now` stays. -/
theorem badInterruptIndexIsFatal : Obligations.BadInterruptIndexIsFatal := by
  intro s i hrun hdue hime hge _ hi hlow
  have htake : takeInterrupt i (atCpu s) = { atCpu s with fatal := some (.badInterruptIndex i) } := if_pos hge
  rw [step_of_due hrun hdue, cpuActive_of_pending hime hi hlow, htake]
  rfl

/-! ## Time and Fatal -/

theorem CpuWrites.fatal_kept (w : CpuWrites s t) : t.fatal = s.fatal := by
  induction w with
  | refl => rfl
  | setReg r v _ ih => rw [State.setReg_fatal, ih]
  | setF _ _ _ ih | setSp _ _ ih | setIme _ _ ih | setIf _ _ ih => exact ih
  | busWrite a v _ ih => rw [busWrite_fatal, ih]

/-- An action of the CPU leaves the cycle; it leaves the Fatal too, or records one and does nothing else. -/
theorem CpuAction.now_fatal (act : CpuAction s t) :
    t.now = s.now ∧ (t.fatal = s.fatal ∨ ∃ kind, t = { s with fatal := some kind }) := by
  cases act with
  | jump target cost hcost w => exact ⟨w.now_nextKept.1, .inl w.fatal_kept⟩
  | halt target => exact ⟨rfl, .inl rfl⟩
  | fatal kind => exact ⟨rfl, .inr ⟨kind, rfl⟩⟩

/-- The CPU's part of a tick leaves the cycle, and the Fatal or everything else. -/
theorem cpuTick_now_fatal (s : State) :
    ∃ t, cpuTick (deviceTicks s) = .next t ∧ t.now = s.now ∧
      (t.fatal = s.fatal ∨ ∃ kind, t = { atCpu s with fatal := some kind }) := by
  obtain ⟨-, hnow, hfatal⟩ := atCpu_globals s
  rcases cpuTick_cases (deviceTicks s) with ⟨-, e⟩ | ⟨-, t, e, act⟩
  · exact ⟨atCpu s, e, hnow, .inl hfatal⟩
  · obtain ⟨hnow', hfatal'⟩ := act.now_fatal
    exact ⟨t, e, hnow'.trans hnow, hfatal'.imp_left (·.trans hfatal)⟩

/-- Settles O42: every action of the CPU leaves the cycle, and the end of the tick advances it but for a Fatal. -/
theorem timeAndFatal : Obligations.TimeAndFatal := by
  refine ⟨fun i s => ?_, fun s hrun => ?_, fun s kind h => by rw [step, h]⟩
  · obtain ⟨t, hexec, act⟩ := exec_acts i s
    exact ⟨t, hexec, act.now_fatal.1⟩
  · obtain ⟨t, e, hnow, hfatal⟩ := cpuTick_now_fatal s
    refine ⟨advanceNow t, by rw [step_of_running hrun, e, onNext], ?_⟩
    rcases hfatal with hfatal | ⟨kind, rfl⟩
    · have hnone : t.fatal = none := hfatal.trans hrun
      rw [advanceNow, if_pos hnone]
      exact .inl ⟨hnone, congrArg (· + 1) hnow⟩
    · exact .inr ⟨Option.some_ne_none kind, rfl⟩

end Sys2Proof.Machine
end

section
/-! SUPPORT. The sprites of a line by their indices in OAM: the selection, and the sort by the pair (X, index)
(49_display.md R379 to R381). -/

namespace Sys2Proof.Spec

open Sys2Proof.Machine

variable {r : Lcd} {m : Memory} {ly : Nat}

/-! ## The selection -/

theorem spriteAt_eq (m : Memory) : spriteAt m = oamEntry m := by
  funext k
  unfold spriteAt oamEntry
  congr 2 <;> omega

theorem spriteOnLine_eq (r : Lcd) (m : Memory) (ly k : Nat) :
    spriteOnLine (spriteHeight r.lcdc) ly (oamEntry m k) = true ↔ meetsLine r m ly k := decide_eq_true_iff

/-- The indices of the selected sprites. -/
def selectedIndices (r : Lcd) (m : Memory) (ly : Nat) : List Nat :=
  if r.lcdc.getLsbD 1 then
    ((List.range 40).filter (fun k => spriteOnLine (spriteHeight r.lcdc) ly (oamEntry m k))).take 10
  else []

theorem selectSprites_eq (r : Lcd) (m : Memory) (ly : Nat) :
    selectSprites r m ly = (selectedIndices r m ly).map (oamEntry m) := by
  unfold selectSprites selectedIndices
  split
  · rw [spriteAt_eq, List.filter_map, List.map_take]
    rfl
  · rfl

theorem selectedIndices_sublist (r : Lcd) (m : Memory) (ly : Nat) :
    (selectedIndices r m ly).Sublist
      ((List.range 40).filter (fun k => spriteOnLine (spriteHeight r.lcdc) ly (oamEntry m k))) := by
  unfold selectedIndices
  split
  · exact List.take_sublist _ _
  · exact List.nil_sublist _

theorem selectedIndices_rising (r : Lcd) (m : Memory) (ly : Nat) : (selectedIndices r m ly).Pairwise (· < ·) :=
  (List.pairwise_lt_range.filter _).sublist (selectedIndices_sublist r m ly)

theorem selectedIndices_length (r : Lcd) (m : Memory) (ly : Nat) : (selectedIndices r m ly).length ≤ 10 := by
  unfold selectedIndices
  split
  · exact List.length_take_le _ _
  · exact Nat.zero_le _

theorem meetsLine_of_mem {k : Nat} (h : k ∈ selectedIndices r m ly) : k < 40 ∧ meetsLine r m ly k := by
  obtain ⟨hrange, hmeets⟩ := List.mem_filter.1 ((selectedIndices_sublist r m ly).subset h)
  exact ⟨List.mem_range.1 hrange, (spriteOnLine_eq r m ly k).1 hmeets⟩

/-- In a rising list what the first `n` leave out comes after `n` others. -/
theorem rising_take {l : List Nat} (hl : l.Pairwise (· < ·)) {n k : Nat} (hk : k ∈ l) (hout : k ∉ l.take n) :
    (l.take n).length = n ∧ ∀ j ∈ l.take n, j < k := by
  have hdrop : k ∈ l.drop n := by
    rw [← List.take_append_drop n l, List.mem_append] at hk
    exact hk.resolve_left hout
  rw [← List.take_append_drop n l, List.pairwise_append] at hl
  obtain ⟨-, -, hbefore⟩ := hl
  have hlen : 0 < (l.drop n).length := List.length_pos_of_mem hdrop
  rw [List.length_drop] at hlen
  exact ⟨List.length_take_of_le (by omega), fun j hj => hbefore j hj k hdrop⟩

/-- With the layer on, a sprite that meets the line is left out only behind 10 of lower index. -/
theorem selectedIndices_left_out (hon : r.lcdc.getLsbD 1 = true) {k : Nat} (hk : k < 40) (hmeets : meetsLine r m ly k)
    (hout : k ∉ selectedIndices r m ly) :
    (selectedIndices r m ly).length = 10 ∧ ∀ j ∈ selectedIndices r m ly, j < k := by
  unfold selectedIndices at *
  rw [if_pos hon] at *
  exact rising_take (List.pairwise_lt_range.filter _)
    (List.mem_filter.2 ⟨List.mem_range.2 hk, (spriteOnLine_eq r m ly k).2 hmeets⟩) hout

/-! ## The sort -/

/-- Before in the order by the pair (X, index). -/
def spriteBefore (m : Memory) (j k : Nat) : Prop :=
  (oamEntry m j).x.toNat < (oamEntry m k).x.toNat ∨ ((oamEntry m j).x = (oamEntry m k).x ∧ j < k)

/-- A sprite goes before those whose X is at least its own, and so before those of higher index with its own X. -/
theorem insertSprite_sorted {k : Nat} {l : List Nat} (hl : l.Pairwise (spriteBefore m)) (hk : ∀ j ∈ l, k < j) :
    ∃ l' : List Nat, insertSprite (oamEntry m k) (l.map (oamEntry m)) = l'.map (oamEntry m) ∧ l'.Perm (k :: l) ∧
      l'.Pairwise (spriteBefore m) := by
  induction l with
  | nil => exact ⟨[k], rfl, .refl _, List.pairwise_singleton _ _⟩
  | cons q l ih =>
    obtain ⟨hq, hrest⟩ := List.pairwise_cons.1 hl
    rw [List.map_cons, insertSprite]
    split
    case isTrue hle =>
      refine ⟨k :: q :: l, rfl, .refl _, List.pairwise_cons.2 ⟨fun j hj => ?_, hl⟩⟩
      have hqj : (oamEntry m q).x.toNat ≤ (oamEntry m j).x.toNat := by
        rcases List.mem_cons.1 hj with rfl | hj
        · exact Nat.le_refl _
        · rcases hq j hj with hlt | ⟨heq, -⟩
          · exact hlt.le
          · rw [heq]
      rcases Nat.lt_or_eq_of_le (hle.trans hqj) with hlt | heq
      · exact .inl hlt
      · exact .inr ⟨BitVec.eq_of_toNat_eq heq, hk j hj⟩
    case isFalse hgt =>
      obtain ⟨l', e, hperm, hsorted⟩ := ih hrest fun j hj => hk j (List.mem_cons_of_mem q hj)
      refine ⟨q :: l', by rw [e]; rfl, (hperm.cons q).trans (.swap k q l), List.pairwise_cons.2 ⟨fun j hj => ?_, hsorted⟩⟩
      rcases List.mem_cons.1 (hperm.subset hj) with rfl | hj
      · exact .inl (by omega)
      · exact hq j hj

theorem sortSprites_sorted {l : List Nat} (hl : l.Pairwise (· < ·)) :
    ∃ l' : List Nat, sortSprites (l.map (oamEntry m)) = l'.map (oamEntry m) ∧ l'.Perm l ∧
      l'.Pairwise (spriteBefore m) := by
  induction l with
  | nil => exact ⟨[], rfl, .refl _, .nil⟩
  | cons k l ih =>
    obtain ⟨hk, hrest⟩ := List.pairwise_cons.1 hl
    obtain ⟨l', e, hperm, hsorted⟩ := ih hrest
    obtain ⟨l'', e', hperm', hsorted'⟩ := insertSprite_sorted hsorted fun j hj => hk j (hperm.subset hj)
    exact ⟨l'', by rw [List.map_cons, sortSprites, e, e'], hperm'.trans (hperm.cons k), hsorted'⟩

/-- Settles O58: the selection by index, and its sort. -/
theorem spriteOrder : Obligations.SpriteOrder := by
  intro r m ly
  obtain ⟨sorted, e, hperm, hsorted⟩ := sortSprites_sorted (m := m) (selectedIndices_rising r m ly)
  exact ⟨selectedIndices r m ly, sorted, selectSprites_eq r m ly, by rw [selectSprites_eq, e],
    selectedIndices_rising r m ly, selectedIndices_length r m ly, fun _ => meetsLine_of_mem,
    fun hoff => if_neg (by rw [hoff]; exact Bool.false_ne_true), fun hon _ => selectedIndices_left_out hon, hperm, hsorted⟩

end Sys2Proof.Spec
end

section
/-! SUPPORT. The bit-plane containers as functions of the column, each operation an equation without a contract violation
(49_display.md R388 to R393). -/

namespace Sys2Proof.Machine

/-- An operation that violates no contract goes on. -/
theorem ok_bind {α β : Type} (a : α) (f : α → Checked β) : ((Except.ok a : Checked α) >>= f) = f a := rfl

/-! ## Planes -/

/-- The plane of `n` columns with the bits of `f`. -/
def planeOf (n : Nat) (f : Nat → Bool) : Plane := ⟨(List.range n).map f⟩

variable {n k : Nat} {f g : Nat → Bool}

@[simp] theorem planeOf_size (n : Nat) (f : Nat → Bool) : (planeOf n f).size = n := by simp [planeOf, Plane.size]

theorem planeOf_congr (h : ∀ x < n, f x = g x) : planeOf n f = planeOf n g :=
  congrArg Plane.mk (List.map_congr_left fun x hx => h x (List.mem_range.1 hx))

theorem ofFn_ok (hn : validSize n = true) (f : Nat → Bool) : Plane.ofFn n f = .ok (planeOf n f) := if_pos hn

theorem planeOf_bit (n : Nat) (f : Nat → Bool) (x : Nat) :
    ((planeOf n f).bits[x]?).getD false = (decide (x < n) && f x) := by
  unfold planeOf
  rw [List.getElem?_map]
  by_cases hx : x < n
  · rw [List.getElem?_range hx, decide_eq_true hx]
    rfl
  · rw [List.getElem?_eq_none (by rw [List.length_range]; omega), decide_eq_false hx]
    rfl

theorem planeOf_bitOrZero_nat (n : Nat) (f : Nat → Bool) (x : Nat) :
    (planeOf n f).bitOrZero x = (decide (x < n) && f x) := by
  unfold Plane.bitOrZero
  rw [if_pos (Int.natCast_nonneg x), Int.toNat_natCast, planeOf_bit]

theorem planeOf_not (n : Nat) (f : Nat → Bool) : (planeOf n f).not = planeOf n (fun x => !f x) := by
  simp [planeOf, Plane.not]

theorem planeOf_zip (op : Bool → Bool → Bool) (n : Nat) (f g : Nat → Bool) :
    Plane.zip op (planeOf n f) (planeOf n g) = .ok (planeOf n (fun x => op (f x) (g x))) := by
  unfold Plane.zip
  rw [planeOf_size, planeOf_size, if_pos rfl]
  simp [planeOf, List.zipWith_map, List.zipWith_self]

theorem planeOf_and (n : Nat) (f g : Nat → Bool) :
    (planeOf n f).and (planeOf n g) = .ok (planeOf n (fun x => f x && g x)) := planeOf_zip _ n f g

theorem planeOf_or (n : Nat) (f g : Nat → Bool) :
    (planeOf n f).or (planeOf n g) = .ok (planeOf n (fun x => f x || g x)) := planeOf_zip _ n f g

/-- Column `x` of a plane moved right by `d`, from the column `x - d` if it is one. -/
def moved {α : Type} (n : Nat) (d : Int) (outside : α) (f : Nat → α) (x : Nat) : α :=
  if 0 ≤ (x : Int) - d ∧ (x : Int) - d < n then f ((x : Int) - d).toNat else outside

theorem planeOf_shift (hn : validSize n = true) (f : Nat → Bool) (d : Int) :
    (planeOf n f).shift d = .ok (planeOf n (moved n d false f)) := by
  unfold Plane.shift Plane.extractZeroExtended
  rw [planeOf_size, ofFn_ok hn]
  refine congrArg Except.ok (planeOf_congr fun x _ => ?_)
  unfold moved Plane.bitOrZero
  rw [show -d + (x : Int) = (x : Int) - d by omega, planeOf_bit]
  by_cases h0 : 0 ≤ (x : Int) - d
  · rw [if_pos h0]
    by_cases hlt : (x : Int) - d < n
    · rw [if_pos ⟨h0, hlt⟩, decide_eq_true (by omega), Bool.true_and]
    · rw [if_neg fun h => hlt h.2, decide_eq_false (by omega), Bool.false_and]
  · rw [if_neg h0, if_neg fun h => h0 h.1]

theorem planeOf_extractWrapped (hk : validSize k = true) (hn : 0 < n) (f : Nat → Bool) (start : Nat) :
    (planeOf n f).extractWrapped start k = .ok (planeOf k (fun x => f ((start + x) % n))) := by
  unfold Plane.extractWrapped
  rw [planeOf_size, ofFn_ok hk]
  refine congrArg Except.ok (planeOf_congr fun x _ => ?_)
  rw [show ((start : Int) + (x : Int)) % (n : Int) = (((start + x) % n : Nat) : Int) by push_cast; rfl,
    planeOf_bitOrZero_nat, decide_eq_true (Nat.mod_lt _ hn), Bool.true_and]

theorem planeOf_join (f g : Nat → Bool) (hk : k ≤ n) :
    (planeOf n f).join (planeOf n g) k = planeOf n (fun x => if x < k then f x else g x) := by
  unfold Plane.join planeOf
  refine congrArg Plane.mk (List.ext_getElem (by simp; omega) fun i h1 h2 => ?_)
  simp only [List.getElem_append, List.length_take, List.length_map, List.length_range]
  split
  · rw [List.getElem_take, List.getElem_map, List.getElem_map, List.getElem_range, if_pos (by omega)]
  · rw [List.getElem_drop, List.getElem_map, List.getElem_map, List.getElem_range, List.getElem_range, if_neg (by omega)]
    congr 1
    omega

/-- One plane of `below`. -/
theorem planeOf_select (n : Nat) (mask top self : Nat → Bool) :
    Plane.select (planeOf n mask) (planeOf n top) (planeOf n self) =
      .ok (planeOf n (fun x => if mask x then top x else self x)) := by
  unfold Plane.select
  rw [planeOf_and, ok_bind, planeOf_not, planeOf_and, ok_bind, planeOf_or]
  refine congrArg Except.ok (planeOf_congr fun x _ => ?_)
  cases mask x <;> simp

/-! ## Lines -/

/-- The pixel of colour `c`, opaque unless `c` is 0 (49_display.md R372, R392). -/
def Px.ofRaw (c : Pixel) : Px := { colour := c, solid := c != 0#2 }

/-- The line of `n` columns with the pixels of `f`. -/
def lineOf (n : Nat) (f : Nat → Px) : ImageLine :=
  ⟨planeOf n fun x => (f x).colour.getLsbD 1, planeOf n fun x => (f x).colour.getLsbD 0, planeOf n fun x => (f x).solid⟩

variable {p q : Nat → Px}

theorem lineOf_congr (h : ∀ x < n, p x = q x) : lineOf n p = lineOf n q := by
  unfold lineOf
  congr 1 <;> exact planeOf_congr fun x hx => by rw [h x hx]

@[simp] theorem lineOf_size (n : Nat) (p : Nat → Px) : (lineOf n p).size = n := planeOf_size _ _

/-- The colour of two bits has those bits. -/
theorem pixel_bits (a b : Bool) :
    (BitVec.ofNat 2 (2 * a.toNat + b.toNat)).getLsbD 1 = a ∧ (BitVec.ofNat 2 (2 * a.toNat + b.toNat)).getLsbD 0 = b := by
  cases a <;> cases b <;> decide

theorem pixel_ofBits (c : Pixel) : BitVec.ofNat 2 (2 * (c.getLsbD 1).toNat + (c.getLsbD 0).toNat) = c := by
  revert c
  decide

theorem lineOf_colour {x : Nat} (hx : x < n) (p : Nat → Px) : (lineOf n p).colour x = (p x).colour := by
  unfold ImageLine.colour lineOf
  rw [planeOf_bitOrZero_nat, planeOf_bitOrZero_nat, decide_eq_true hx, Bool.true_and, Bool.true_and, pixel_ofBits]

theorem lineOf_colours (n : Nat) (p : Nat → Px) : (lineOf n p).colours = (List.range n).map fun x => (p x).colour := by
  unfold ImageLine.colours
  rw [lineOf_size]
  exact List.map_congr_left fun x hx => lineOf_colour (List.mem_range.1 hx) p

theorem lineOf_empty (hn : validSize n = true) : ImageLine.empty n = .ok (lineOf n fun _ => Px.clear) := by
  have hclear : lineOf n (fun _ => Px.clear) =
      ⟨planeOf n fun _ => false, planeOf n fun _ => false, planeOf n fun _ => false⟩ := by simp [lineOf, Px.clear]
  unfold ImageLine.empty Plane.zeros
  rw [ofFn_ok hn, hclear]
  rfl

theorem lineOf_shift (hn : validSize n = true) (p : Nat → Px) (d : Int) :
    (lineOf n p).shift d = .ok (lineOf n (moved n d Px.clear p)) := by
  have hmoved : ∀ (bit : Px → Bool), bit Px.clear = false →
      planeOf n (moved n d false fun x => bit (p x)) = planeOf n fun x => bit (moved n d Px.clear p x) := by
    refine fun bit hclear => planeOf_congr fun x _ => ?_
    unfold moved
    split
    · rfl
    · exact hclear.symm
  unfold ImageLine.shift lineOf
  simp only
  rw [planeOf_shift hn, planeOf_shift hn, planeOf_shift hn, hmoved (fun c => c.colour.getLsbD 1) rfl,
    hmoved (fun c => c.colour.getLsbD 0) rfl, hmoved Px.solid rfl]
  rfl

theorem lineOf_extractWrapped (hk : validSize k = true) (hn : 0 < n) (p : Nat → Px) (start : Nat) :
    (lineOf n p).extractWrapped start k = .ok (lineOf k fun x => p ((start + x) % n)) := by
  unfold ImageLine.extractWrapped lineOf
  simp only
  rw [planeOf_extractWrapped hk hn, planeOf_extractWrapped hk hn, planeOf_extractWrapped hk hn]
  rfl

theorem lineOf_mapColors (n : Nat) (p : Nat → Px) (palette : Byte) :
    (lineOf n p).mapColors palette = lineOf n fun x => { p x with colour := pal palette (p x).colour } := by
  unfold ImageLine.mapColors
  rw [lineOf_size]
  have hplane : ∀ i, (⟨(List.range n).map fun x => (pal palette ((lineOf n p).colour x)).getLsbD i⟩ : Plane) =
      planeOf n fun x => (pal palette (p x).colour).getLsbD i :=
    fun i => planeOf_congr fun x hx => by rw [lineOf_colour hx]
  rw [hplane 1, hplane 0]
  rfl

/-- `below` by a mask: the top where the mask is set, which is opaque there. -/
theorem lineOf_belowMask (n : Nat) (self top : Nat → Px) (mask : Nat → Bool) :
    (lineOf n self).belowMask (lineOf n top) (planeOf n mask) =
      .ok (lineOf n fun x =>
        { colour := if mask x then (top x).colour else (self x).colour, solid := (self x).solid || mask x }) := by
  have hbit : ∀ i, planeOf n (fun x => if mask x then (top x).colour.getLsbD i else (self x).colour.getLsbD i) =
      planeOf n fun x => (if mask x then (top x).colour else (self x).colour).getLsbD i := by
    refine fun i => planeOf_congr fun x _ => ?_
    split <;> rfl
  unfold ImageLine.belowMask lineOf
  simp only
  rw [planeOf_select, planeOf_select, planeOf_or, hbit, hbit]
  rfl

theorem lineOf_opacity (n : Nat) (p : Nat → Px) : (lineOf n p).opacity = planeOf n fun x => (p x).solid := rfl

/-- `below` by the top's own opacity. -/
theorem lineOf_below (n : Nat) (self top : Nat → Px) :
    (lineOf n self).below (lineOf n top) =
      .ok (lineOf n fun x =>
        { colour := if (top x).solid then (top x).colour else (self x).colour, solid := (self x).solid || (top x).solid }) :=
  lineOf_belowMask n self top fun x => (top x).solid

theorem lineOf_join (p q : Nat → Px) (hk : k ≤ n) :
    (lineOf n p).join (lineOf n q) k = .ok (lineOf n fun x => if x < k then p x else q x) := by
  have hplane : ∀ bit : Px → Bool, planeOf n (fun x => if x < k then bit (p x) else bit (q x)) =
      planeOf n fun x => bit (if x < k then p x else q x) := by
    refine fun bit => planeOf_congr fun x _ => ?_
    split <;> rfl
  unfold ImageLine.join
  rw [lineOf_size, lineOf_size, if_neg (not_not.2 rfl), if_neg (by omega)]
  unfold lineOf
  simp only
  rw [planeOf_join _ _ hk, planeOf_join _ _ hk, planeOf_join _ _ hk, hplane fun c => c.colour.getLsbD 1,
    hplane fun c => c.colour.getLsbD 0, hplane Px.solid]

end Sys2Proof.Machine
end

section
/-! SUPPORT. The compositor in the bit-plane algebra, line by line, against the pixel rules (49_display.md R370 to R384, R391,
R392, R395). -/

namespace Sys2Proof.Machine

/-! ## Lines built from bytes -/

variable {n : Nat}

/-- A plane builder of `n` columns with the bits of `f`. -/
def builderOf (n : Nat) (f : Nat → Bool) : PlaneBuilder := ⟨(List.range n).map f⟩

/-- The bits `f` with the bytes of a list from byte position `k` on in their place. -/
def withBytes (k : Nat) (bytes : List Byte) (f : Nat → Bool) (x : Nat) : Bool :=
  if k ≤ x / 8 then (bytes[x / 8 - k]?).elim (f x) (·.getLsbD (x % 8)) else f x

theorem withBytes_nil (k : Nat) (f : Nat → Bool) : withBytes k [] f = f := by
  funext x
  exact ite_self _

theorem withBytes_cons (k : Nat) (v : Byte) (bytes : List Byte) (f : Nat → Bool) :
    withBytes k (v :: bytes) f = withBytes (k + 1) bytes (withBytes k [v] f) := by
  funext x
  unfold withBytes
  rcases Nat.lt_trichotomy (x / 8) k with hlt | heq | hgt
  · rw [if_neg (by omega), if_neg (by omega), if_neg (by omega)]
  · rw [if_pos (by omega), if_neg (by omega), if_pos (by omega), heq, Nat.sub_self]
    rfl
  · obtain ⟨j, hj⟩ := Nat.exists_eq_add_of_lt hgt
    rw [if_pos (by omega), if_pos (by omega), if_pos (by omega), show x / 8 - k = j + 1 by omega,
      show x / 8 - (k + 1) = j by omega, List.getElem?_cons_succ]
    rfl

theorem builderOf_setByte {k : Nat} (hk : k < n / 8) (f : Nat → Bool) (v : Byte) :
    (builderOf n f).setByte k v = .ok (builderOf n (withBytes k [v] f)) := by
  unfold PlaneBuilder.setByte builderOf
  rw [if_pos (by simpa using hk)]
  refine congrArg (fun bits => Except.ok (PlaneBuilder.mk bits)) (List.ext_getElem (by simp) fun i h1 h2 => ?_)
  simp only [List.getElem_mapIdx, List.getElem_map, List.getElem_range]
  unfold withBytes
  rcases Nat.lt_trichotomy (i / 8) k with hlt | heq | hgt
  · rw [if_neg (by omega), if_neg (by omega)]
  · rw [if_pos heq, if_pos (by omega), heq, Nat.sub_self]
    rfl
  · obtain ⟨j, hj⟩ := Nat.exists_eq_add_of_lt hgt
    rw [if_neg (by omega), if_pos (by omega), show i / 8 - k = j + 1 by omega]
    rfl

/-- The pairs of bytes set from byte position `k` on. -/
theorem setAll_builderOf (pairs : List (Byte × Byte)) (k : Nat) (hlen : k + pairs.length ≤ n / 8) (f g : Nat → Bool) :
    LineBuilder.setAll ⟨builderOf n f, builderOf n g⟩ k pairs =
      .ok ⟨builderOf n (withBytes k (pairs.map Prod.fst) f), builderOf n (withBytes k (pairs.map Prod.snd) g)⟩ := by
  induction pairs generalizing k f g with
  | nil =>
    rw [List.map_nil, List.map_nil, withBytes_nil, withBytes_nil]
    rfl
  | cons pair rest ih =>
    obtain ⟨msb, lsb⟩ := pair
    rw [List.length_cons] at hlen
    have hset : LineBuilder.setBytes ⟨builderOf n f, builderOf n g⟩ k msb lsb =
        .ok ⟨builderOf n (withBytes k [msb] f), builderOf n (withBytes k [lsb] g)⟩ := by
      unfold LineBuilder.setBytes
      simp only
      rw [builderOf_setByte (by omega), builderOf_setByte (by omega)]
      rfl
    rw [LineBuilder.setAll, hset, ok_bind, ih (k + 1) (by omega), ← withBytes_cons, ← withBytes_cons]
    rfl

/-- The colour of column `x` in a line built from pairs (msb byte, lsb byte). -/
def builtColour (pairs : List (Byte × Byte)) (x : Nat) : Pixel :=
  BitVec.ofNat 2
    (2 * (withBytes 0 (pairs.map Prod.fst) (fun _ => false) x).toNat +
      (withBytes 0 (pairs.map Prod.snd) (fun _ => false) x).toNat)

/-- A line built from bytes is opaque where its colour is not 0. -/
theorem ofBytes_eq (hn : validSize n = true) (pairs : List (Byte × Byte)) (hlen : pairs.length ≤ n / 8) :
    ImageLine.ofBytes n pairs = .ok (lineOf n fun x => Px.ofRaw (builtColour pairs x)) := by
  have hnew : LineBuilder.new n = .ok ⟨builderOf n fun _ => false, builderOf n fun _ => false⟩ := by
    unfold LineBuilder.new PlaneBuilder.new builderOf
    rw [if_pos hn, List.map_const', List.length_range]
    rfl
  have hbuild : ∀ f g : Nat → Bool, LineBuilder.build ⟨builderOf n f, builderOf n g⟩ =
      .ok ⟨planeOf n f, planeOf n g, planeOf n fun x => f x || g x⟩ := by
    intro f g
    show ((planeOf n f).or (planeOf n g) >>= ImageLine.ofPlanes (planeOf n f) (planeOf n g)) = _
    rw [planeOf_or, ok_bind, ImageLine.ofPlanes, planeOf_size, planeOf_size, planeOf_size,
      if_neg (not_not.2 rfl), if_neg (not_not.2 rfl)]
  have hsolid : ∀ a b : Bool, (a || b) = (BitVec.ofNat 2 (2 * a.toNat + b.toNat) != 0#2) := by decide
  rw [ImageLine.ofBytes, hnew, ok_bind, setAll_builderOf pairs 0 (by omega), ok_bind, hbuild]
  simp only [lineOf, Px.ofRaw, builtColour, (pixel_bits _ _).1, (pixel_bits _ _).2, hsolid]

/-! ## Tile rows -/

theorem reverseByte_getLsbD (v : Byte) {j : Nat} (hj : j < 8) : (reverseByte v).getLsbD j = v.getLsbD (7 - j) := by
  rw [reverseByte, BitVec.getLsbD_reverse, BitVec.getMsbD, decide_eq_true hj, Bool.true_and]

theorem reverseByte_reverseByte (v : Byte) : reverseByte (reverseByte v) = v := BitVec.reverse_reverse_eq

/-- In a line built from tile rows, column `x` is pixel `x % 8` of row `x / 8`. -/
theorem builtColour_tileRow {pairs : List (Byte × Byte)} {m : Memory} {addr row x : Nat}
    (h : pairs[x / 8]? = some (tileRowBytes m addr row)) :
    builtColour pairs x = tileRow m addr row (x % 8) := by
  have hmod : x % 8 < 8 := Nat.mod_lt _ (by decide)
  unfold builtColour withBytes tileRow planeColour
  simp only [Nat.zero_le, if_true, Nat.sub_zero, List.getElem?_map, h, Option.map_some, Option.elim_some, tileRowBytes,
    reverseByte_getLsbD _ hmod]

theorem mapRowLine_eq (m : Memory) (lcdc : Byte) (base y : Nat) :
    mapRowLine m lcdc base y = .ok (lineOf 256 fun u => Px.ofRaw (mapRow m lcdc base y u)) := by
  unfold mapRowLine
  rw [ofBytes_eq rfl _ (by simp)]
  refine congrArg Except.ok (lineOf_congr fun u hu => congrArg Px.ofRaw ?_)
  refine builtColour_tileRow ?_
  rw [List.getElem?_map, List.getElem?_range (by omega)]
  rfl

/-! ## Background and window -/

theorem bgLinePlanes_eq (r : Lcd) (m : Memory) (ly : Nat) :
    bgLinePlanes r m ly = .ok (lineOf 160 (bgPixel r m ly)) := by
  unfold bgLinePlanes Config.lcdWidth
  split
  case isTrue hon =>
    rw [mapRowLine_eq, ok_bind, lineOf_extractWrapped rfl (by decide), ok_bind, lineOf_mapColors]
    refine congrArg Except.ok (lineOf_congr fun x _ => ?_)
    rw [bgPixel, if_pos hon, Nat.add_comm x]
    rfl
  case isFalse hoff =>
    refine (lineOf_empty rfl).trans (congrArg Except.ok (lineOf_congr fun x _ => ?_))
    rw [bgPixel, if_neg hoff]

/-- Pixel `x` of the window's line, where column 0 of the map row stands at WX - 7. -/
def windowPixel (r : Lcd) (m : Memory) : Nat → Px :=
  moved 160 ((r.wx.toNat : Int) - 7) Px.clear fun u =>
    Px.ofRaw (mapRow m r.lcdc (mapBase (r.lcdc.getLsbD 6)) r.winLine ((0 + u) % 256))

theorem winLinePlanes_eq (r : Lcd) (m : Memory) :
    winLinePlanes r m =
      .ok (lineOf 160 fun x => { windowPixel r m x with colour := pal r.bgp (windowPixel r m x).colour }) := by
  unfold winLinePlanes Config.lcdWidth
  rw [mapRowLine_eq, ok_bind, show (0 : Int) = ((0 : Nat) : Int) from rfl, lineOf_extractWrapped rfl (by decide), ok_bind,
    lineOf_shift rfl, ok_bind, lineOf_mapColors]
  rfl

theorem windowDrawn_wx {r : Lcd} {ly : Nat} (h : windowDrawn r ly = true) : 7 ≤ r.wx.toNat ∧ r.wx.toNat < 167 := by
  unfold windowDrawn at h
  simp only [Bool.and_eq_true, decide_eq_true_eq] at h
  exact h.1.2

theorem bgWindowPlanes_eq (r : Lcd) (m : Memory) (ly : Nat) :
    bgWindowPlanes r m ly = .ok (lineOf 160 (bgWindowPixel r m ly)) := by
  unfold bgWindowPlanes
  rw [bgLinePlanes_eq, ok_bind]
  split
  case isTrue hdrawn =>
    have hwx := windowDrawn_wx hdrawn
    rw [winLinePlanes_eq, ok_bind, lineOf_join _ _ (by omega)]
    refine congrArg Except.ok (lineOf_congr fun x hx => ?_)
    unfold bgWindowPixel
    rw [hdrawn, Bool.true_and]
    by_cases hstart : r.wx.toNat ≤ x + 7
    · rw [if_neg (by omega), decide_eq_true hstart, if_pos rfl, windowPixel, moved, if_pos (by omega),
        show ((x : Int) - ((r.wx.toNat : Int) - 7)).toNat = x + 7 - r.wx.toNat by omega, Nat.zero_add,
        Nat.mod_eq_of_lt (by omega)]
      rfl
    · rw [if_pos (by omega), decide_eq_false hstart, if_neg Bool.false_ne_true]
  case isFalse hnot =>
    refine congrArg Except.ok (lineOf_congr fun x _ => ?_)
    rw [bgWindowPixel, Bool.eq_false_iff.2 hnot, Bool.false_and, if_neg Bool.false_ne_true]

/-! ## Sprites -/

/-- A line built from one pair of bytes has its 8 columns. -/
theorem builtColour_of_lt (a b : Byte) {x : Nat} (hx : x < 8) :
    builtColour [(a, b)] x = BitVec.ofNat 2 (2 * (a.getLsbD x).toNat + (b.getLsbD x).toNat) := by
  unfold builtColour withBytes
  rw [Nat.div_eq_of_lt hx, Nat.mod_eq_of_lt hx]
  rfl

/-- Past them it is of colour 0. -/
theorem builtColour_of_ge (pair : Byte × Byte) {x : Nat} (hx : 8 ≤ x) : builtColour [pair] x = 0#2 := by
  obtain ⟨j, hj⟩ : ∃ j, x / 8 = j + 1 := ⟨x / 8 - 1, by omega⟩
  unfold builtColour withBytes
  rw [hj]
  rfl

/-- The bytes of a sprite's row, after FLIP_H. -/
def spriteBytes (r : Lcd) (m : Memory) (ly : Nat) (sp : Sprite) : Byte × Byte :=
  let row := tileRowBytes m (spriteTileAddr (spriteHeight r.lcdc) sp) (spriteRow (spriteHeight r.lcdc) ly sp)
  if sp.attr.getLsbD 5 then (reverseByte row.1, reverseByte row.2) else row

/-- FLIP_H reverses the columns. -/
theorem builtColour_sprite (r : Lcd) (m : Memory) (ly : Nat) (sp : Sprite) {x : Nat} (hx : x < 8) :
    builtColour [spriteBytes r m ly sp] x =
      tileRow m (spriteTileAddr (spriteHeight r.lcdc) sp) (spriteRow (spriteHeight r.lcdc) ly sp)
        (if sp.attr.getLsbD 5 then 7 - x else x) := by
  unfold spriteBytes tileRowBytes tileRow planeColour
  simp only
  split
  · rw [builtColour_of_lt _ _ hx, reverseByte_reverseByte, reverseByte_reverseByte, Nat.sub_sub_self (by omega)]
  · rw [builtColour_of_lt _ _ hx, reverseByte_getLsbD _ hx, reverseByte_getLsbD _ hx]

/-- The palette of a sprite. -/
def spritePalette (r : Lcd) (sp : Sprite) : Byte := if sp.attr.getLsbD 4 then r.obp1 else r.obp0

/-- Column `x` of a sprite's line: outside its 8 columns it is transparent, of the palette's colour 0. -/
def spriteColumn (r : Lcd) (m : Memory) (ly : Nat) (sp : Sprite) (x : Nat) : Px :=
  if sp.x.toNat ≤ x + 8 ∧ x + 8 - sp.x.toNat ≤ 7 then spritePixel r m sp ly x
  else { Px.clear with colour := pal (spritePalette r sp) 0#2 }

theorem spriteColumn_solid (r : Lcd) (m : Memory) (ly : Nat) (sp : Sprite) (x : Nat) :
    (spriteColumn r m ly sp x).solid = (spritePixel r m sp ly x).solid := by
  unfold spriteColumn
  split
  · rfl
  case isFalse hout => rw [spritePixel, if_neg hout]

theorem spriteColumn_of_solid {r : Lcd} {m : Memory} {ly : Nat} {sp : Sprite} {x : Nat}
    (h : (spritePixel r m sp ly x).solid = true) : spriteColumn r m ly sp x = spritePixel r m sp ly x := by
  unfold spriteColumn
  split
  · rfl
  case isFalse hout =>
    rw [spritePixel, if_neg hout] at h
    cases h

theorem spriteLinePlanes_eq (r : Lcd) (m : Memory) (ly : Nat) (sp : Sprite) :
    spriteLinePlanes r m ly sp = .ok (lineOf 160 (spriteColumn r m ly sp)) := by
  have hbuilt : spriteLinePlanes r m ly sp =
      (ImageLine.ofBytes 160 [spriteBytes r m ly sp] >>= fun line =>
        line.shift ((sp.x.toNat : Int) - 8) >>= fun moved => pure (moved.mapColors (spritePalette r sp))) := rfl
  rw [hbuilt, ofBytes_eq rfl [spriteBytes r m ly sp] (by show 1 ≤ 20; decide), ok_bind, lineOf_shift rfl, ok_bind,
    lineOf_mapColors]
  refine congrArg Except.ok (lineOf_congr fun x hx => ?_)
  unfold spriteColumn moved
  by_cases hin : sp.x.toNat ≤ x + 8 ∧ x + 8 - sp.x.toNat ≤ 7
  · rw [if_pos hin, if_pos (by omega), show ((x : Int) - ((sp.x.toNat : Int) - 8)).toNat = x + 8 - sp.x.toNat by omega,
      spritePixel, if_pos hin]
    beta_reduce
    rw [builtColour_sprite r m ly sp (by omega)]
    rfl
  · rw [if_neg hin]
    split
    · beta_reduce
      rw [builtColour_of_ge _ (by omega)]
      rfl
    · rfl

theorem passPlanes_eq (r : Lcd) (m : Memory) (ly : Nat) (sprites : List Sprite) :
    passPlanes r m ly sprites = .ok (lineOf 160 fun x => passPixel r m ly x sprites) := by
  induction sprites with
  | nil => exact lineOf_empty rfl
  | cons sp rest ih =>
    rw [passPlanes, ih, ok_bind, spriteLinePlanes_eq, ok_bind, lineOf_below]
    refine congrArg Except.ok (lineOf_congr fun x _ => ?_)
    rw [passPixel, spriteColumn_solid]
    cases hsolid : (spritePixel r m sp ly x).solid with
    | false => simp
    | true =>
      rw [spriteColumn_of_solid hsolid]
      generalize spritePixel r m sp ly x = px at hsolid ⊢
      obtain ⟨c, solid⟩ := px
      obtain rfl : solid = true := hsolid
      simp

/-- Settles O59: each line of the algebra is the line of the pixel rule. -/
theorem planesComposeTheSameLine : Obligations.PlanesComposeTheSameLine := by
  intro r m ly
  unfold composeLinePlanes
  simp only
  rw [bgWindowPlanes_eq, ok_bind, passPlanes_eq, ok_bind, passPlanes_eq, ok_bind, lineOf_opacity, lineOf_opacity, planeOf_not,
    planeOf_or, ok_bind, lineOf_belowMask, ok_bind, lineOf_below, ok_bind, lineOf_colours]
  refine congrArg Except.ok (List.map_congr_left fun x _ => ?_)
  unfold linePixel mergePixel
  cases (passPixel r m ly x (passSprites false (sortSprites (selectSprites r m ly)))).solid <;>
    cases (passPixel r m ly x (passSprites true (sortSprites (selectSprites r m ly)))).solid <;>
      cases (bgWindowPixel r m ly x).solid <;> rfl

end Sys2Proof.Machine
end
